-- ==== Sys2Proof/Word.lean ====
section
/-! DEFINITION. The widths of the Orunel 6216: the words and addresses its manual treats as bits
(spec/00_scope.md, Conventions). -/

namespace Sys2Proof

/-- A byte of the register window, of the parameter area or of the serial flash. -/
abbrev Byte := BitVec 8

/-- A 16-bit word of the fetch port, of the ROM port or of patch RAM. -/
abbrev Word := BitVec 16

/-- A word address of the fetch port, 00000h to 7FFFFh (R20). -/
abbrev FetchAddr := BitVec 19

/-- A byte address of the serial flash (R159). -/
abbrev FlashAddr := BitVec 24

/-- A CRC-32 value or remainder (R60). -/
abbrev Crc32 := BitVec 32

/-- A generation number, 0 to 65535 (R12). -/
abbrev Generation := BitVec 16

/-- A segment handle. Handle number `n` of the manual (1 to 48) is the index `n - 1` (R44). -/
abbrev Handle := Fin 48

end Sys2Proof
end

