-- ==== Sys2Proof/Syntax.lean ====
section
/-! DEFINITION. The commands of the 6216: one constructor for each row of spec/opcode_table.json, with
what the event brings from outside the part as its operands. -/

namespace Sys2Proof

/-- FKIND: the kind of a fetch request (R20). -/
inductive FetchKind where
  | code
  | data
  deriving DecidableEq, Repr

/-- FWR: the direction of a fetch request (R20). -/
inductive FetchDir where
  | read
  | write
  deriving DecidableEq, Repr

/-- FLEN: the four lengths of a fetch request (R20, R186). -/
inductive FetchLength where
  | one
  | two
  | four
  | eight
  deriving DecidableEq, Repr

/-- The steps of the part. The twenty command rows are writes of their own code to CMD: their parameters
are the bytes that stand in the parameter area (R143), so they carry no operand of their own. -/
inductive Instr where
  /-- The end of power-on, with the levels then found on LDEN, TRST# and FREQ# (`true`: LDEN high, the
  others asserted) (R156). -/
  | powerOn (lden trst freq : Bool)
  /-- XRST# goes from released to asserted (R40). -/
  | xrstAssert
  /-- XRST# goes from asserted to released; the level then found on LDEN (R156). -/
  | xrstRelease (lden : Bool)
  /-- TRST# goes from released to asserted (R38). -/
  | trstAssert
  /-- TRST# goes from asserted to released (R38). -/
  | trstRelease
  /-- The assertion of TRST# that is a reset excess (R113). -/
  | resetExcess
  /-- FREQ# goes from released to asserted, with the lines of a request (R20, R21). -/
  | freqPresent (fa : FetchAddr) (flen : FetchLength) (fkind : FetchKind) (fwr : FetchDir) (fd : Word)
  /-- The presentation that stands is accepted (R21, R24). -/
  | fetchAccept
  /-- RRDY ends a ROM read cycle with this word on RD (R27). -/
  | romReadDone (rd : Word)
  /-- RRDY ends a ROM write cycle; the word the processor then drives on FD for the next word of the
  request, if there is one (R35, R36). -/
  | romWriteDone (fd : Word)
  /-- A fetch read of patch RAM ends (R28, R65). -/
  | fetchRamReadDone
  /-- A CRC read of patch RAM ends (R62). -/
  | crcWordRead
  /-- The CRC read that folds the last word of the job (R63). -/
  | sealComplete
  /-- The millisecond tick (R110). -/
  | msTick
  /-- The tick that lowers the probation timer from 1 to 0 (R111). -/
  | probationExpiry
  /-- A NOW commit that waits at fetch idle is switched (R24, R93). -/
  | switch
  /-- A revert that waits is taken at fetch idle (R24, R102). -/
  | revertTaken
  | segAlloc
  | segSelect
  | segSeal
  | segUnseal
  | segFree
  | segInfo
  | stgInsert
  | stgRemove
  | stgClear
  | stgCopyLive
  | tblRead
  | cntClear
  | commit
  | commitAbort
  | revert
  | confirm
  | genStatus
  | logPop
  | logClear
  | ldrStatus
  /-- A write to CMD of a code that names no command (R143, R180). -/
  | badCommand (code : Byte)
  /-- A write to parameter byte P<index> (R142). -/
  | parameterWrite (index : Fin 16) (value : Byte)
  /-- A write to STATUS (R147). -/
  | statusWrite (value : Byte)
  /-- A write to INT_PEND (R137). -/
  | intPendWrite (value : Byte)
  /-- A write to INT_EN (R136). -/
  | intEnWrite (value : Byte)
  /-- A write to DATA_LO (R55). -/
  | dataLoWrite (value : Byte)
  /-- A write to DATA_HI (R56). -/
  | dataHiWrite (value : Byte)
  /-- A read of DATA_LO (R57). -/
  | dataLoRead
  /-- A read of DATA_HI (R57). -/
  | dataHiRead
  /-- A write to RESULT or to an unassigned offset, or an access with both strobes asserted (R140, R186). -/
  | windowWriteIgnored (offset : BitVec 5) (value : Byte) (bothStrobes : Bool)
  /-- The last word of patch RAM has been zero-filled (R157). -/
  | zeroFillEnd
  /-- The 16th header byte has been received; the 16 bytes in flash order (R163, R185). -/
  | headerReceived (header : Vector Byte 16)
  /-- A type byte that names no record kind, or the body exhausted without END (R164). -/
  | unknownRecordType (typeByte : Byte)
  /-- The fixed part of a SEGMENT record (R165, R185). -/
  | segmentRecord (length : Word) (crc : Crc32)
  /-- One word of a SEGMENT record (R166). -/
  | segmentWord (word : Word)
  /-- An ENTRY record (R167, R185). -/
  | entryRecord (base : BitVec 24) (length : Word) (kind applies ordinal : Byte) (offset value : Word)
  /-- The END record's type byte (R168). -/
  | endRecord
  /-- The loader's end event after its switch (R169, R173). -/
  | loaderRunEnd
  /-- FREQ# goes from asserted to released (R21). -/
  | freqRelease
  deriving DecidableEq, Repr

end Sys2Proof
end

