-- ==== Sys2Proof/Decode.lean ====
section
/-! DEFINITION. The decoder over the rows of spec/opcode_table.json that give bits. No row of this table
gives any, so no word spells a command. -/

namespace Sys2Proof

/-- The command that a word spells by the table's bits: none of the 56 rows has a "fixed" or "fields" list. -/
def decodeTableWord (_nbits _w : Nat) : Option Instr := none

end Sys2Proof
end

