-- ==== Sys2Proof/Config.lean ====
section
/-! DEFINITION. The numbers the manual fixes for the 6216. The manual leaves no value free that a step
needs, so there is no opaque constant here; the orders it leaves open are the order of the command
queue (notes/assumptions/1.md). -/

namespace Sys2Proof.Config

/-- Words of patch RAM (R42). -/
def patchWords : Nat := 16384

/-- Granules of patch RAM (R42). -/
def granules : Nat := 512

/-- Words of one granule (R42). -/
def granuleWords : Nat := 32

/-- Entries a table holds at most (R9). -/
def tableEntries : Nat := 32

/-- Longest range of an entry, in words (R1). -/
def maxLength : Nat := 4096

/-- One past the highest fetch address, 80000h (R1). -/
def fetchTop : Nat := 0x80000

/-- Highest segment offset an entry may carry (R1). -/
def maxOffset : Nat := 16383

/-- Value at which a hits count stays (R8). -/
def hitsMax : Nat := 16777215

/-- Records the event log holds at most (R128, R129). -/
def logRecords : Nat := 16

/-- CLK periods of one millisecond tick (R110). -/
def tickPeriods : Nat := 32000

/-- Longest body of a flash image, in bytes (R161). -/
def maxBody : Nat := 65520

/-- Records of a flash image at most, the END record included (R161). -/
def maxRecords : Nat := 96

end Sys2Proof.Config
end

