-- ==== Sys2Proof/Machine/State.lean ====
section
/-! DEFINITION. The state of the Orunel 6216, block by block as the manual's block diagram gives it
(spec/00_scope.md), the state after reset, and the reasons a step could stop. -/

namespace Sys2Proof.Machine

/-! ### Input levels -/

/-- The levels of the pins whose changes are events of the part; `true` is asserted. -/
structure Pins where
  /-- XRST#, chip reset (R40). -/
  xrst : Bool
  /-- TRST#, target reset (R38). -/
  trst : Bool
  /-- FREQ#, presence of a request (R20). -/
  freq : Bool
  deriving DecidableEq, Repr

/-! ### Table Store -/

/-- Which fetch kinds an entry serves (R3). -/
inductive Applies where
  | code
  | data
  | any
  deriving DecidableEq, Repr

/-- The kind of an entry with the fields only that kind has (R1). -/
inductive EntryBody where
  | replace (segment : Handle) (offset : Nat)
  | fill (value : Word)
  | trap (value : Word)
  | count
  deriving DecidableEq, Repr

/-- An overlay entry (R1). -/
structure Entry where
  base : FetchAddr
  length : Nat
  applies : Applies
  body : EntryBody
  hits : Nat
  deriving DecidableEq, Repr

/-- A table that carries a generation number: LIVE, or PRIOR when it is present (R11, R12). -/
structure NumberedTable where
  entries : List Entry
  generation : Generation
  deriving DecidableEq, Repr

/-- The three tables and the lock of STAGED (R9, R11, R13). PRIOR is present when it is `some`. -/
structure TableStore where
  staged : List Entry
  stagedLock : Bool
  live : NumberedTable
  prior : Option NumberedTable
  deriving DecidableEq, Repr

/-! ### Fetch Port Interface -/

/-- A presentation that stands on the fetch port lines (R20, R21). -/
structure Presentation where
  address : FetchAddr
  length : FetchLength
  kind : FetchKind
  dir : FetchDir
  data : Word
  deriving DecidableEq, Repr

/-- The request in progress (R20). The latched table is LIVE (R23, R108), told by its number. -/
structure Request where
  /-- Aligned first word address (R22). -/
  first : FetchAddr
  length : FetchLength
  kind : FetchKind
  dir : FetchDir
  /-- Generation number of the latched table (R23). -/
  latch : Generation
  /-- Words still to deliver or write. -/
  left : Nat
  deriving DecidableEq, Repr

/-- The ROM port cycle in progress (R26); a write carries the word the part drives on RD. -/
inductive RomCycle where
  | none
  | read
  | write (data : Word)
  deriving DecidableEq, Repr

/-- One word marked by FRDY: `some w` is delivered on FD (R30), `none` is a word written (R36). -/
structure Beat where
  address : FetchAddr
  data : Option Word
  deriving DecidableEq, Repr

/-- The Fetch Port Interface and its ROM port. -/
structure FetchPort where
  standing : Option Presentation
  request : Option Request
  /-- RA: the address of the last cycle, or 00000h before the first (R26). -/
  romAddress : FetchAddr
  romCycle : RomCycle
  /-- The words marked by FRDY since the last acceptance, oldest first: the model's record of the
  outputs FRDY and FD (notes/assumptions/10.md). -/
  beats : List Beat
  deriving DecidableEq, Repr

/-! ### Patch Memory Controller -/

/-- A run of granules (R43). -/
structure Run where
  first : Nat
  count : Nat
  deriving DecidableEq, Repr

/-- What a completed seal fixed, and the references to it (R44). -/
structure SealData where
  length : Nat
  crc : Crc32
  references : Nat
  deriving DecidableEq, Repr

/-- A segment descriptor: its state with the fields present in that state (R44). -/
inductive Segment where
  | free
  | opened (run : Run)
  | sealing (run : Run) (length : Nat)
  | sealed (run : Run) (data : SealData)
  | condemned (run : Run) (data : SealData)
  deriving DecidableEq, Repr

/-- The data pointer when it is set (R54). -/
structure DataPointer where
  handle : Handle
  offset : Nat
  deriving DecidableEq, Repr

/-- The job of the CRC engine (R61, R62). -/
structure CrcJob where
  handle : Handle
  length : Nat
  expected : Crc32
  remainder : Crc32
  /-- Offset of the next word to fold. -/
  offset : Nat
  /-- The seal reports to the loader and not to the command unit (R66). -/
  forLoader : Bool
  deriving DecidableEq, Repr

/-- A fetch read claim: the segment and offset a replace resolution carries (R28). -/
structure FetchClaim where
  handle : Handle
  offset : Nat
  deriving DecidableEq, Repr

/-- The access that has the patch RAM port (R65). `discarded` is a fetch read that TRST# withdrew while
it was being served (R38); `dataAccess` is an access of the data-port class, the loader's writes among them. -/
inductive RamAccess where
  | fetchRead (claim : FetchClaim)
  | discarded
  | dataAccess
  | crcRead
  deriving DecidableEq, Repr

/-- The patch RAM arbiter (R65). -/
structure Arbiter where
  serving : Option RamAccess
  fetchWaits : Option FetchClaim
  dataWaits : Bool
  crcWaits : Bool
  deriving DecidableEq, Repr

/-- The Patch Memory Controller. The granule map of R43 is the runs of the descriptors. -/
structure PatchMemory where
  /-- Patch RAM as bytes, word `w` low byte first at `2 * w` (R42; notes/assumptions/8.md). -/
  ram : List Host.Cell
  segments : Vector Segment 48
  pointer : Option DataPointer
  writeLatch : Byte
  readLatch : Option Byte
  dataReject : Bool
  crcJob : Option CrcJob
  arbiter : Arbiter
  deriving DecidableEq, Repr

/-! ### Generation Controller -/

/-- The mode of a commit; the switch address is held for AT_ADDRESS (R87). -/
inductive CommitMode where
  | now
  | atAddress (address : FetchAddr)
  | atTargetReset
  deriving DecidableEq, Repr

/-- The pending commit (R87). -/
structure PendingCommit where
  mode : CommitMode
  probation : Word
  tolerance : Fin 8
  deriving DecidableEq, Repr

/-- What put the controller in REVERT_WAITING (R87). -/
inductive RevertOrigin where
  | manual
  | expiry
  | resets
  deriving DecidableEq, Repr

/-- The generation state, with the pending commit exactly in COMMIT_PENDING and the origin exactly in
REVERT_WAITING (R87). -/
inductive GenState where
  | steady
  | commitPending (commit : PendingCommit)
  | probation
  | revertWaiting (origin : RevertOrigin)
  deriving DecidableEq, Repr

/-- How the last probation ended (R116). -/
inductive LastOutcome where
  | none
  | confirmed
  | expiredReverted
  | resetsReverted
  | manualReverted
  deriving DecidableEq, Repr

/-- The Generation Controller's record (R87). -/
structure GenControl where
  state : GenState
  counter : Generation
  timer : Word
  resetCount : Nat
  tolerance : Fin 8
  lastOutcome : LastOutcome
  deriving DecidableEq, Repr

/-! ### Event Log and Interrupt Unit -/

/-- The kind of a log record with the field only that kind has (R124). -/
inductive RecordBody where
  | trap (kind : FetchKind)
  | shadow (word : Word)
  deriving DecidableEq, Repr

/-- A log record (R124). -/
structure LogRecord where
  sequence : BitVec 16
  address : FetchAddr
  entryIndex : Nat
  generation : Generation
  body : RecordBody
  deriving DecidableEq, Repr

/-- The Event Log: the records held, oldest first, and the next-sequence counter (R127, R130). -/
structure EventLog where
  records : List LogRecord
  nextSequence : BitVec 16
  deriving DecidableEq, Repr

/-- The Interrupt Unit: two sets over the seven causes, at the bit positions of R179. -/
structure Interrupts where
  pending : BitVec 7
  enable : BitVec 7
  deriving DecidableEq, Repr

/-! ### Command Unit -/

/-- The twenty result codes (R144, R180). -/
inductive ResultCode where
  | ok
  | busy
  | badCommand
  | badParam
  | notFound
  | wrongState
  | noSpace
  | noHandle
  | range
  | overlap
  | tableFull
  | stageLocked
  | commitPending
  | nonePending
  | inProbation
  | noPrior
  | late
  | crcMismatch
  | logEmpty
  | loaderActive
  deriving DecidableEq, Repr

/-- The two commands that hold the unit BUSY (R146). -/
inductive HeldCommand where
  | segSeal
  | revert
  deriving DecidableEq, Repr

/-- The Command Unit's record (R141). -/
structure CommandUnit where
  command : Byte
  params : Vector Byte 16
  result : ResultCode
  busy : Option HeldCommand
  refused : Bool
  deriving DecidableEq, Repr

/-! ### Image Loader -/

/-- The loader's state (R154). -/
inductive LoaderRun where
  | idle
  | running
  | done
  deriving DecidableEq, Repr

/-- The loader's phase (R154). -/
inductive LoaderPhase where
  | none
  | zeroFill
  | header
  | records
  | sealWait
  | switchWait
  deriving DecidableEq, Repr

/-- An image slot (R160). -/
inductive Slot where
  | a
  | b
  deriving DecidableEq, Repr

/-- The nine fields of an image header (R161). -/
structure ImageHeader where
  mark : Word
  format : Byte
  flags : Byte
  tolerance : Byte
  probation : Word
  recordCount : Byte
  bodyLength : Word
  bodyCrc : Crc32
  headerCrc : Word
  deriving DecidableEq, Repr

/-- The SEGMENT record being read (R166). -/
structure SegmentProgress where
  handle : Handle
  length : Nat
  expected : Crc32
  written : Nat
  deriving DecidableEq, Repr

/-- The result of a slot (R170, R174). -/
inductive SlotResult where
  | notTried
  | ok
  | noImage
  | headerBad
  | recordBad
  | noSpace
  | sealCrc
  | overlapOrRange
  | bodyCrc
  | countMismatch
  deriving DecidableEq, Repr

/-- A slot's result and record index (R174). -/
structure SlotReport where
  result : SlotResult
  index : Nat
  deriving DecidableEq, Repr

/-- The overall outcome of a run (R174). -/
inductive OverallOutcome where
  | none
  | notEnabled
  | loaded
  | noValidImage
  deriving DecidableEq, Repr

/-- The outcome record (R174). -/
structure OutcomeRecord where
  overall : OverallOutcome
  slotUsed : Option Slot
  slotA : SlotReport
  slotB : SlotReport
  committed : Option Generation
  probation : Bool
  deriving DecidableEq, Repr

/-- The Image Loader's record (R154). -/
structure Loader where
  state : LoaderRun
  phase : LoaderPhase
  lden : Bool
  slot : Option Slot
  header : Option ImageHeader
  bodyRead : Nat
  recordsTaken : Nat
  segmentMap : List Handle
  remainder : Crc32
  /-- The SEGMENT record in progress. -/
  current : Option SegmentProgress
  /-- The commit the loader made asks for a trial: the model's own (notes/assumptions/15.md). -/
  asksTrial : Bool
  /-- The SPI transaction in progress, by the flash address sent; SSEL# is asserted exactly while it is
  present (R159, R160). -/
  transaction : Option FlashAddr
  outcome : OutcomeRecord
  deriving DecidableEq, Repr

end Sys2Proof.Machine

namespace Sys2Proof.Machine

/-- The whole part, and the queue of the commands that are waiting for it. -/
structure State where
  pins : Pins
  fetch : FetchPort
  mem : PatchMemory
  tables : TableStore
  gen : GenControl
  log : EventLog
  irq : Interrupts
  cmd : CommandUnit
  loader : Loader
  /-- CLK periods since the last millisecond tick (R110). -/
  divider : Fin 32000
  /-- The byte the last data-port read drove on WD: the model's record of an output
  (notes/assumptions/10.md). -/
  windowData : Option Byte
  /-- The commands that are waiting, first in, first out. -/
  pending : List Instr
  deriving DecidableEq, Repr

end Sys2Proof.Machine

namespace Sys2Proof.Machine

/-- The part answers every event by a result code, a flag or a cause: no meaning raises a fault. The one
reason is the model's own and is raised by nothing (safe: a stop would only withhold claims). -/
inductive Fault where
  /-- Raised by no command. -/
  | neverRaised
  deriving DecidableEq, Repr

/-- Why a step could have no meaning. -/
inductive Refusal where
  /-- An arm of `exec` that has no meaning yet (safe: nothing is claimed of it). No arm answers so now. -/
  | notModelled (mnemonic : String)
  deriving DecidableEq, Repr

/-! ### Reset values -/

/-- R40: the fetch port after power-on or chip reset. -/
def fetchReset : FetchPort :=
  { standing := none, request := none, romAddress := 0, romCycle := .none, beats := [] }

/-- R68: no access in progress and no claim waiting. -/
def arbiterReset : Arbiter := { serving := none, fetchWaits := none, dataWaits := false, crcWaits := false }

/-- R68: the Patch Memory Controller after power-on. -/
def memReset : PatchMemory :=
  { ram := [], segments := Vector.replicate 48 Segment.free, pointer := none, writeLatch := 0,
    readLatch := none, dataReject := false, crcJob := none, arbiter := arbiterReset }

/-- R19: the tables. -/
def tablesReset : TableStore :=
  { staged := [], stagedLock := false, live := { entries := [], generation := 0 }, prior := none }

/-- R107: the Generation Controller. -/
def genReset : GenControl :=
  { state := .steady, counter := 0, timer := 0, resetCount := 0, tolerance := 0, lastOutcome := .none }

/-- R134: the Event Log. -/
def logReset : EventLog := { records := [], nextSequence := 0 }

/-- R139: the Interrupt Unit. -/
def irqReset : Interrupts := { pending := 0, enable := 0 }

/-- R141: the Command Unit. -/
def cmdReset : CommandUnit :=
  { command := 0, params := Vector.replicate 16 0, result := .ok, busy := none, refused := false }

/-- R174: the initial outcome record. -/
def outcomeReset : OutcomeRecord :=
  { overall := .none, slotUsed := none, slotA := { result := .notTried, index := 0 },
    slotB := { result := .notTried, index := 0 }, committed := none, probation := false }

/-- R154: the loader at power-on and while XRST# is asserted. -/
def loaderReset : Loader :=
  { state := .idle, phase := .none, lden := false, slot := none, header := none, bodyRead := 0,
    recordsTaken := 0, segmentMap := [], remainder := 0xFFFFFFFF, current := none, asksTrial := false,
    transaction := none, outcome := outcomeReset }

/-- The machine at the end of power-on (R156): every block at its reset values and the loader's run just
started, with LDEN, TRST# and FREQ# found low and released (notes/assumptions/6.md). -/
def State.reset : State :=
  { pins := { xrst := false, trst := false, freq := false }
    fetch := fetchReset
    mem := memReset
    tables := tablesReset
    gen := genReset
    log := logReset
    irq := irqReset
    cmd := cmdReset
    loader := { loaderReset with state := .running, phase := .zeroFill }
    divider := 0
    windowData := none
    pending := [] }

end Sys2Proof.Machine
end

