-- ==== Sys2Proof/Machine/Codes.lean ====
section
/-! DEFINITION. The numeric codes of R180 and the byte order of the manual (little-endian everywhere in
the window and in the flash image). -/

namespace Sys2Proof.Machine

/-! ### Bytes of numbers -/

/-- The low byte of a number. -/
def byte (n : Nat) : Byte := BitVec.ofNat 8 n

/-- Two bytes, low byte first (chapter 10, introduction). -/
def bytes2 (n : Nat) : List Byte := [byte n, byte (n / 256)]

/-- Three bytes, low byte first. -/
def bytes3 (n : Nat) : List Byte := [byte n, byte (n / 256), byte (n / 65536)]

/-- Four bytes, low byte first. -/
def bytes4 (n : Nat) : List Byte := [byte n, byte (n / 256), byte (n / 65536), byte (n / 16777216)]

/-- The low byte of a word. -/
def lowByte (w : Word) : Byte := w.setWidth 8

/-- The high byte of a word. -/
def highByte (w : Word) : Byte := (w >>> 8).setWidth 8

/-- A word of its two bytes. -/
def wordOf (high low : Byte) : Word := high ++ low

/-! ### Command and record codes -/

/-- The codes of R180, in the order of its table. -/
def commandCodes : List Byte :=
  [0x10, 0x11, 0x12, 0x13, 0x14, 0x15, 0x20, 0x21, 0x22, 0x23, 0x24, 0x30,
   0x40, 0x41, 0x42, 0x43, 0x44, 0x50, 0x51, 0x60]

/-- R180: the code names a command. -/
def namesCommand (code : Byte) : Bool := commandCodes.contains code

/-- R185: the type byte names a record kind. -/
def namesRecord (typeByte : Byte) : Bool := typeByte == 1 || typeByte == 2 || typeByte == 3

/-- R140: a write to this offset is ignored (RESULT, or an unassigned offset). -/
def ignoresWrite (offset : BitVec 5) : Bool :=
  offset == 2 || (7 ≤ offset.toNat && offset.toNat ≤ 15)

/-! ### Codes of named values (R180) -/

def ResultCode.code : ResultCode → Byte
  | .ok => 0x00
  | .busy => 0x01
  | .badCommand => 0x02
  | .badParam => 0x03
  | .notFound => 0x04
  | .wrongState => 0x05
  | .noSpace => 0x06
  | .noHandle => 0x07
  | .range => 0x08
  | .overlap => 0x09
  | .tableFull => 0x0A
  | .stageLocked => 0x0B
  | .commitPending => 0x0C
  | .nonePending => 0x0D
  | .inProbation => 0x0E
  | .noPrior => 0x0F
  | .late => 0x10
  | .crcMismatch => 0x11
  | .logEmpty => 0x12
  | .loaderActive => 0x13

/-- 1 REPLACE, 2 FILL, 3 TRAP, 4 COUNT. -/
def EntryBody.kindCode : EntryBody → Nat
  | .replace _ _ => 1
  | .fill _ => 2
  | .trap _ => 3
  | .count => 4

/-- 1 CODE, 2 DATA, 3 ANY. -/
def Applies.number : Applies → Nat
  | .code => 1
  | .data => 2
  | .any => 3

/-- The applies value a byte names, if it names one. -/
def appliesOf (b : Byte) : Option Applies :=
  if b = 1 then some .code else if b = 2 then some .data else if b = 3 then some .any else none

/-- 0 FREE, 1 OPEN, 2 SEALING, 3 SEALED, 4 CONDEMNED. -/
def Segment.stateCode : Segment → Nat
  | .free => 0
  | .opened _ => 1
  | .sealing _ _ => 2
  | .sealed _ _ => 3
  | .condemned _ _ => 4

/-- 1 NOW, 2 AT_ADDRESS, 3 AT_TARGET_RESET. -/
def CommitMode.code : CommitMode → Nat
  | .now => 1
  | .atAddress _ => 2
  | .atTargetReset => 3

/-- The switch address a pending commit holds: 00000h outside AT_ADDRESS (R87). -/
def CommitMode.address : CommitMode → FetchAddr
  | .now => 0
  | .atAddress a => a
  | .atTargetReset => 0

/-- 0 STEADY, 1 COMMIT_PENDING, 2 PROBATION, 3 REVERT_WAITING. -/
def GenState.code : GenState → Nat
  | .steady => 0
  | .commitPending _ => 1
  | .probation => 2
  | .revertWaiting _ => 3

/-- 1 MANUAL, 2 EXPIRY, 3 RESETS. -/
def RevertOrigin.code : RevertOrigin → Nat
  | .manual => 1
  | .expiry => 2
  | .resets => 3

def LastOutcome.code : LastOutcome → Nat
  | .none => 0
  | .confirmed => 1
  | .expiredReverted => 2
  | .resetsReverted => 3
  | .manualReverted => 4

/-- The fetch kind in a log record: 1 CODE, 2 DATA. -/
def fetchKindCode : FetchKind → Nat
  | .code => 1
  | .data => 2

def LoaderRun.code : LoaderRun → Nat
  | .idle => 0
  | .running => 1
  | .done => 2

def LoaderPhase.code : LoaderPhase → Nat
  | .none => 0
  | .zeroFill => 1
  | .header => 2
  | .records => 3
  | .sealWait => 4
  | .switchWait => 5

/-- 0 none, 1 A, 2 B. -/
def slotCode : Option Slot → Nat
  | none => 0
  | some .a => 1
  | some .b => 2

def OverallOutcome.code : OverallOutcome → Nat
  | .none => 0
  | .notEnabled => 1
  | .loaded => 2
  | .noValidImage => 3

def SlotResult.code : SlotResult → Nat
  | .notTried => 0
  | .ok => 1
  | .noImage => 2
  | .headerBad => 3
  | .recordBad => 4
  | .noSpace => 5
  | .sealCrc => 6
  | .overlapOrRange => 7
  | .bodyCrc => 8
  | .countMismatch => 9

end Sys2Proof.Machine
end

