-- ==== Sys2Proof/Machine/Lines.lean ====
section
/-! DEFINITION. From the part's lines to its commands: the code written to CMD (R180), the offset and the strobes of a
window access (R140, R186), and the lines of a presentation (R20, R186). A sender makes its commands with these; `exec`
takes them already made. -/

namespace Sys2Proof.Machine

/-! ### The register window -/

/-- R143, R180: the command that a byte written to CMD names; every other value is BAD_COMMAND's. -/
def cmdWrite (code : Byte) : Instr :=
  match code.toNat with
  | 0x10 => .segAlloc
  | 0x11 => .segSelect
  | 0x12 => .segSeal
  | 0x13 => .segUnseal
  | 0x14 => .segFree
  | 0x15 => .segInfo
  | 0x20 => .stgInsert
  | 0x21 => .stgRemove
  | 0x22 => .stgClear
  | 0x23 => .stgCopyLive
  | 0x24 => .tblRead
  | 0x30 => .cntClear
  | 0x40 => .commit
  | 0x41 => .commitAbort
  | 0x42 => .revert
  | 0x43 => .confirm
  | 0x44 => .genStatus
  | 0x50 => .logPop
  | 0x51 => .logClear
  | 0x60 => .ldrStatus
  | _ => .badCommand code

/-- R140: the command that a write of a byte at an offset is. -/
def windowWrite (offset : BitVec 5) (v : Byte) : Instr :=
  match offset.toNat with
  | 0 => cmdWrite v
  | 1 => .statusWrite v
  | 3 => .intPendWrite v
  | 4 => .intEnWrite v
  | 5 => .dataLoWrite v
  | 6 => .dataHiWrite v
  | n => if h : 16 ≤ n ∧ n < 32 then .parameterWrite ⟨n - 16, by omega⟩ v else .windowWriteIgnored offset v false

/-- R140: the command that a read of an offset is. Only the two data-port reads have an effect, and a row. -/
def windowRead (offset : BitVec 5) : Option Instr :=
  match offset.toNat with
  | 5 => some .dataLoRead
  | 6 => some .dataHiRead
  | _ => none

/-- R186: the command of the levels on WCS#, WRD# and WWR# (`true` is asserted). There is an access only with WCS# asserted:
a read with WRD#, a write with WWR#, and with both strobes one that is ignored. -/
def windowAccess (wcs wrd wwr : Bool) (offset : BitVec 5) (v : Byte) : Option Instr :=
  match wcs, wrd, wwr with
  | false, _, _ => none
  | true, true, true => some (.windowWriteIgnored offset v true)
  | true, true, false => windowRead offset
  | true, false, true => some (windowWrite offset v)
  | true, false, false => none

/-! ### The fetch port -/

/-- R186: FLEN[1:0]. -/
def fetchLengthOf (flen : BitVec 2) : FetchLength :=
  match flen.toNat with
  | 0 => .one
  | 1 => .two
  | 2 => .four
  | _ => .eight

/-- R186: FKIND, low CODE and high DATA. -/
def fetchKindOf (high : Bool) : FetchKind := if high then .data else .code

/-- R186: FWR, low read and high write. -/
def fetchDirOf (high : Bool) : FetchDir := if high then .write else .read

/-- R20, R186: the presentation that an assertion of FREQ# makes with the levels then on the lines. -/
def presentLines (fa : FetchAddr) (flen : BitVec 2) (fkind fwr : Bool) (fd : Word) : Instr :=
  .freqPresent fa (fetchLengthOf flen) (fetchKindOf fkind) (fetchDirOf fwr) fd

end Sys2Proof.Machine
end

