-- ==== Sys2Proof/Machine/Crc.lean ====
section
/-! DEFINITION. The two cyclic redundancy checks: CRC-32 of seals and bodies (R60), CRC-16 of image
headers (R162). -/

namespace Sys2Proof.Machine

/-- One of the eight steps of a byte (R60). -/
def crc32Step (r : Crc32) : Crc32 :=
  if r.getLsbD 0 then (r >>> 1) ^^^ 0xEDB88320#32 else r >>> 1

/-- A byte taken into the CRC-32 remainder (R60). -/
def crc32Byte (r : Crc32) (b : Byte) : Crc32 := Nat.repeat crc32Step 8 (r ^^^ b.setWidth 32)

/-- A word taken into the remainder: low byte, then high byte (R60, R62). -/
def crc32Word (r : Crc32) (w : Word) : Crc32 := crc32Byte (crc32Byte r (lowByte w)) (highByte w)

/-- The remainder at the start (R60). -/
def crc32Init : Crc32 := 0xFFFFFFFF

/-- The CRC from the remainder after the last byte (R60). -/
def crc32Final (r : Crc32) : Crc32 := r ^^^ 0xFFFFFFFF

/-- The CRC-32 of a sequence of bytes (R60). -/
def crc32 (bs : List Byte) : Crc32 := crc32Final (bs.foldl crc32Byte crc32Init)

/-- One of the eight steps of a byte (R162). -/
def crc16Step (r : Word) : Word := if r.msb then (r <<< 1) ^^^ 0x1021#16 else r <<< 1

/-- A byte taken into the CRC-16 remainder (R162). -/
def crc16Byte (r : Word) (b : Byte) : Word := Nat.repeat crc16Step 8 (r ^^^ (b.setWidth 16 <<< 8))

/-- The CRC-16 of a sequence of bytes (R162). -/
def crc16 (bs : List Byte) : Word := bs.foldl crc16Byte 0xFFFF

end Sys2Proof.Machine
end

