-- ==== Sys2Proof/Machine/Ops.lean ====
section
/-! DEFINITION. The operations on patch memory: the RAM bytes, the segment descriptors with allocation,
freeing and reference claims, the data pointer and the RAM arbiter (spec/03). A block takes no exception:
raising a cause is in Flags.lean. -/

namespace Sys2Proof.Machine

/-! ### Patch RAM (R42) -/

/-- What an unlisted byte of patch RAM reads as: 00h, by the zero-fill (R42). -/
def Memory.background : Byte := 0

/-- The byte at a byte position of patch RAM. -/
def Memory.read : List Host.Cell → Nat → Byte
  | [], _ => Memory.background
  | (k, v) :: rest, a => if k = a then v else Memory.read rest a

/-- A byte written; writing what an unlisted byte reads as removes the entry. -/
def Memory.write : List Host.Cell → Nat → Byte → List Host.Cell
  | [], a, b => if b = Memory.background then [] else [(a, b)]
  | (k, v) :: rest, a, b =>
    if a < k then (if b = Memory.background then (k, v) :: rest else (a, b) :: (k, v) :: rest)
    else if a = k then (if b = Memory.background then rest else (a, b) :: rest)
    else (k, v) :: Memory.write rest a b

/-- Every address of the list is above `a`. -/
def Memory.above (a : Nat) (m : List Host.Cell) : Bool := m.all fun c => a < c.1

/-- The canonical form: addresses strictly rising, and no entry equal to the background. -/
def Memory.wf : List Host.Cell → Bool
  | [] => true
  | c :: rest => Memory.above c.1 rest && c.2 != Memory.background && Memory.wf rest

/-- The word at a RAM position, 0 to 16,383 (R42). -/
def ramWord (m : List Host.Cell) (w : Nat) : Word :=
  wordOf (Memory.read m (2 * w + 1)) (Memory.read m (2 * w))

/-- A word written at a RAM position. -/
def ramStore (m : List Host.Cell) (w : Nat) (v : Word) : List Host.Cell :=
  Memory.write (Memory.write m (2 * w) (lowByte v)) (2 * w + 1) (highByte v)

/-! ### Descriptors (R44) -/

/-- The run a segment owns; a FREE descriptor owns none (R43). -/
def Segment.run : Segment → Option Run
  | .free => none
  | .opened r => some r
  | .sealing r _ => some r
  | .sealed r _ => some r
  | .condemned r _ => some r

def Segment.isFree (g : Segment) : Bool := g.run.isNone

/-- 32 words for each granule owned (R44). -/
def Segment.capacity (g : Segment) : Nat := (g.run.map fun r => r.count * Config.granuleWords).getD 0

/-- The sealed length, or zero where the field is absent (R44, R48). -/
def Segment.sealedLength : Segment → Nat
  | .free => 0
  | .opened _ => 0
  | .sealing _ n => n
  | .sealed _ d => d.length
  | .condemned _ d => d.length

/-- The CRC, or zero where the field is absent (R44, R48). -/
def Segment.crc : Segment → Crc32
  | .free => 0
  | .opened _ => 0
  | .sealing _ _ => 0
  | .sealed _ d => d.crc
  | .condemned _ d => d.crc

/-- The references; 0 in FREE, OPEN and SEALING (R44). -/
def Segment.references : Segment → Nat
  | .free => 0
  | .opened _ => 0
  | .sealing _ _ => 0
  | .sealed _ d => d.references
  | .condemned _ d => d.references

/-- R43: the segment owns granule `g`. -/
def Segment.owns (s : Segment) (g : Nat) : Bool :=
  match s.run with
  | none => false
  | some r => r.first ≤ g && g < r.first + r.count

/-- RAM position of a word offset of a segment (R42). -/
def Segment.position (g : Segment) (offset : Nat) : Nat :=
  (g.run.map fun r => r.first * Config.granuleWords).getD 0 + offset

/-- Descriptor of a handle. -/
def State.segment (s : State) (h : Handle) : Segment := s.mem.segments[h]

/-- A descriptor replaced. -/
def State.setSegment (s : State) (h : Handle) (g : Segment) : State :=
  { s with mem := { s.mem with segments := s.mem.segments.set h g } }

/-- The handle a number 1 to 48 names (R44). -/
def handleOf (n : Nat) : Option Handle :=
  if h : 1 ≤ n ∧ n ≤ 48 then some ⟨n - 1, by omega⟩ else none

/-- The number of a handle, 1 to 48. -/
def handleNumber (h : Handle) : Nat := h.val + 1

/-- The word at an offset of a segment. -/
def State.segmentWord (s : State) (h : Handle) (offset : Nat) : Word :=
  ramWord s.mem.ram ((s.segment h).position offset)

/-- A word written at an offset of a segment. -/
def State.storeSegmentWord (s : State) (h : Handle) (offset : Nat) (w : Word) : State :=
  { s with mem := { s.mem with ram := ramStore s.mem.ram ((s.segment h).position offset) w } }

/-! ### The granule map and allocation (R43, R46, R47) -/

/-- R43: the handle that owns a granule, if it is owned. -/
def granuleOwner (s : State) (g : Nat) : Option Handle :=
  (List.finRange 48).find? fun h => (s.segment h).owns g

/-- R43: the granule is free. -/
def granuleFree (s : State) (g : Nat) : Bool := (granuleOwner s g).isNone

/-- Granules `g` to `g + k - 1` are all free. -/
def runFree (s : State) (g k : Nat) : Bool := (List.range k).all fun i => granuleFree s (g + i)

/-- R47: the lowest-numbered granule at which a run of `k` free granules starts. -/
def firstFit (s : State) (k : Nat) : Option Nat :=
  (List.range (Config.granules + 1 - k)).find? fun g => runFree s g k

/-- R46: the lowest-numbered FREE handle. -/
def lowestFreeHandle (s : State) : Option Handle :=
  (List.finRange 48).find? fun h => (s.segment h).isFree

/-- R48: number of free granules. -/
def freeGranules (s : State) : Nat := (List.range Config.granules).countP (granuleFree s)

/-- Length of the longest run of `true`. -/
def longestRun (bs : List Bool) : Nat :=
  (bs.foldl (fun (acc : Nat × Nat) b => if b then (acc.1 + 1, max acc.2 (acc.1 + 1)) else (0, acc.2))
    (0, 0)).2

/-- R48: length of the longest free run. -/
def longestFreeRun (s : State) : Nat := longestRun ((List.range Config.granules).map (granuleFree s))

/-- R48: number of FREE descriptors. -/
def freeHandles (s : State) : Nat := (List.finRange 48).countP fun h => (s.segment h).isFree

/-- The answer of an allocation (R46). -/
inductive AllocAnswer where
  | refused (code : ResultCode)
  | taken (handle : Handle) (run : Run)
  deriving DecidableEq, Repr

/-- R46: the checks of an allocation of `k` granules, in their order. -/
def allocAnswer (s : State) (k : Nat) : AllocAnswer :=
  if k = 0 ∨ k > Config.granules then .refused .badParam
  else match lowestFreeHandle s with
    | none => .refused .noHandle
    | some h => match firstFit s k with
      | none => .refused .noSpace
      | some g => .taken h { first := g, count := k }

/-! ### The data pointer (R54) -/

/-- The pointer becomes unset, which empties the read latch (R54, R57). -/
def State.unsetPointer (s : State) : State :=
  { s with mem := { s.mem with pointer := none, readLatch := none } }

/-- The pointer becomes unset if it stands on this handle. -/
def State.unsetPointerOn (s : State) (h : Handle) : State :=
  match s.mem.pointer with
  | none => s
  | some p => if p.handle = h then s.unsetPointer else s

/-- A segment becomes FREE: its granules return to the map and a pointer on it is unset (R50, R53). -/
def State.releaseSegment (s : State) (h : Handle) : State := (s.setSegment h .free).unsetPointerOn h

/-- R50: freeing a segment by SEG_FREE or by the loader's rollback. -/
def State.freeSegment (s : State) (h : Handle) : State :=
  match s.segment h with
  | .free => s
  | .opened _ => s.releaseSegment h
  | .sealing _ _ => s
  | .sealed r d => if d.references = 0 then s.releaseSegment h else (s.setSegment h (.condemned r d)).unsetPointerOn h
  | .condemned _ _ => s

/-! ### Reference claims (R52, R53) -/

/-- R52: an increment claim. It is made only for a SEALED or CONDEMNED segment. -/
def State.increment (s : State) (h : Handle) : State :=
  match s.segment h with
  | .free => s
  | .opened _ => s
  | .sealing _ _ => s
  | .sealed r d => s.setSegment h (.sealed r { d with references := d.references + 1 })
  | .condemned r d => s.setSegment h (.condemned r { d with references := d.references + 1 })

/-- R53: a decrement claim; a CONDEMNED segment that reaches 0 is freed at that moment. -/
def State.decrement (s : State) (h : Handle) : State :=
  match s.segment h with
  | .free => s
  | .opened _ => s
  | .sealing _ _ => s
  | .sealed r d => s.setSegment h (.sealed r { d with references := d.references - 1 })
  | .condemned r d =>
    if d.references ≤ 1 then s.releaseSegment h
    else s.setSegment h (.condemned r { d with references := d.references - 1 })

/-- The segment an entry names, if it is a REPLACE entry. -/
def Entry.segment? (e : Entry) : Option Handle :=
  match e.body with
  | .replace h _ => some h
  | .fill _ => none
  | .trap _ => none
  | .count => none

/-- The decrement claim of an entry that leaves the tables (R51). -/
def State.dropEntry (s : State) (e : Entry) : State :=
  match e.segment? with
  | none => s
  | some h => s.decrement h

/-- The increment claim of an entry that enters the tables (R51). -/
def State.addEntry (s : State) (e : Entry) : State :=
  match e.segment? with
  | none => s
  | some h => s.increment h

/-- The decrement claims of several entries, in index order (R15, R81). -/
def State.dropEntries (s : State) (es : List Entry) : State := es.foldl State.dropEntry s

/-- The increment claims of several entries, in index order (R82). -/
def State.addEntries (s : State) (es : List Entry) : State := es.foldl State.addEntry s

/-! ### The patch RAM arbiter (R65) -/

/-- R65: when the port is free, grant a waiting fetch read first, then a data-port access, then a CRC read. -/
def Arbiter.grant (a : Arbiter) : Arbiter :=
  match a.serving with
  | some _ => a
  | none => match a.fetchWaits with
    | some c => { a with serving := some (.fetchRead c), fetchWaits := none }
    | none =>
      if a.dataWaits then { a with serving := some .dataAccess, dataWaits := false }
      else if a.crcWaits then { a with serving := some .crcRead, crcWaits := false }
      else a

/-- The access in progress ends and the port is free. -/
def Arbiter.finish (a : Arbiter) : Arbiter := { a with serving := none }

/-- A fetch read claim is presented (R28). -/
def Arbiter.claimFetch (a : Arbiter) (c : FetchClaim) : Arbiter := { a with fetchWaits := some c }.grant

/-- A claim of the data-port class is presented (R56, R57, R66). -/
def Arbiter.claimData (a : Arbiter) : Arbiter := { a with dataWaits := true }.grant

/-- A CRC read claim is presented (R62). -/
def Arbiter.claimCrc (a : Arbiter) : Arbiter := { a with crcWaits := true }.grant

/-- R38: TRST# withdraws a waiting fetch read; one being served runs on and its word is discarded. -/
def Arbiter.withdrawFetch (a : Arbiter) : Arbiter :=
  { a with
    fetchWaits := none
    serving := match a.serving with
      | some (.fetchRead _) => some .discarded
      | other => other }

/-- R65: a data-port access that had the port has ended. No row brings this end: it is over when the next window access
begins, or the next access of another class ends (notes/assumptions/9.md). -/
def Arbiter.dataEnded (a : Arbiter) : Arbiter :=
  match a.serving with
  | some .dataAccess => a.finish.grant
  | some (.fetchRead _) => a
  | some .discarded => a
  | some .crcRead => a
  | none => a

/-- The arbiter of a state replaced. -/
def State.setArbiter (s : State) (a : Arbiter) : State := { s with mem := { s.mem with arbiter := a } }

/-- R65: the data-port access that had the patch RAM port has ended. -/
def State.dataEnded (s : State) : State := s.setArbiter s.mem.arbiter.dataEnded

/-- R56, R57, R66: a data-port access is claimed at the arbiter. -/
def State.claimData (s : State) : State := s.setArbiter s.mem.arbiter.claimData

end Sys2Proof.Machine
end

