-- ==== Sys2Proof/Machine/Flags.lean ====
section
/-! DEFINITION. The flags: the seven interrupt causes with WINT (spec/07), the STATUS byte (R147, R179),
and the levels of the outputs that follow from the state. -/

namespace Sys2Proof.Machine

/-- The seven causes (R135). -/
inductive Cause where
  | logged
  | overflow
  | switched
  | reverted
  | cmdDone
  | loaderDone
  | refused
  deriving DecidableEq, Repr

/-- Bit position of a cause in INT_PEND and INT_EN (R179). -/
def Cause.bit : Cause → Nat
  | .logged => 0
  | .overflow => 1
  | .switched => 2
  | .reverted => 3
  | .cmdDone => 4
  | .loaderDone => 5
  | .refused => 6

/-- The set that holds one cause. -/
def Cause.mask (c : Cause) : BitVec 7 := 1#7 <<< c.bit

/-- R135: a cause is raised into the pending set. -/
def Interrupts.raise (i : Interrupts) (c : Cause) : Interrupts := { i with pending := i.pending ||| c.mask }

/-- R135: a cause is raised. -/
def State.raise (s : State) (c : Cause) : State := { s with irq := s.irq.raise c }

/-- The cause is in the set. -/
def holdsCause (set : BitVec 7) (c : Cause) : Bool := set.getLsbD c.bit

/-- R138: WINT is asserted while the two sets have a cause in common. -/
def wintAsserted (s : State) : Bool := s.irq.pending &&& s.irq.enable != 0

/-- The Image Loader is running: the LOADER_ACTIVE item of STATUS (R147). -/
def loaderRunning (s : State) : Bool := s.loader.state == .running

/-- R155: HOLDOUT is asserted exactly while the loader runs or the part is in chip reset. -/
def holdoutAsserted (s : State) : Bool := loaderRunning s || s.pins.xrst

/-- R159: SSEL# is asserted exactly during a transaction. -/
def sselAsserted (s : State) : Bool := s.loader.transaction.isSome

/-- R26: ROE# is asserted during a read cycle. -/
def roeAsserted (s : State) : Bool := s.fetch.romCycle == .read

/-- R26: RWE# is asserted during a write cycle. -/
def rweAsserted (s : State) : Bool :=
  match s.fetch.romCycle with
  | .none => false
  | .read => false
  | .write _ => true

/-- R26: what the part drives on RD, if it drives it. -/
def romDataDriven (s : State) : Option Word :=
  match s.fetch.romCycle with
  | .none => none
  | .read => none
  | .write w => some w

/-- R179: the STATUS byte. -/
def statusByte (s : State) : Byte :=
  BitVec.ofNat 8 (s.cmd.busy.isSome.toNat + 2 * s.cmd.refused.toNat + 4 * s.mem.dataReject.toNat
    + 8 * (loaderRunning s).toNat + 16 * s.gen.state.code)

/-- R31: no request is in progress. -/
def fetchIdle (s : State) : Bool := s.fetch.request.isNone

/-- DATA_REJECT is set (R58). -/
def State.rejectData (s : State) : State := { s with mem := { s.mem with dataReject := true } }

end Sys2Proof.Machine
end

