-- ==== Sys2Proof/Machine/Operands.lean ====
section
/-! DEFINITION. The parameter area as a command's operands and as its answer (R141 to R146, R180 to R184),
and the command event common to all commands. -/

namespace Sys2Proof.Machine

/-! ### Parameters -/

/-- Parameter byte P<i>. -/
def param (s : State) (i : Fin 16) : Byte := s.cmd.params[i]

/-- The number of one parameter byte. -/
def param1 (s : State) (i : Fin 16) : Nat := (param s i).toNat

/-- The little-endian number of two parameter bytes. -/
def param2 (s : State) (i j : Fin 16) : Nat := param1 s i + 256 * param1 s j

/-- The little-endian number of three parameter bytes. -/
def param3 (s : State) (i j k : Fin 16) : Nat := param2 s i j + 65536 * param1 s k

/-- The little-endian number of four parameter bytes. -/
def param4 (s : State) (i j k l : Fin 16) : Nat := param3 s i j k + 16777216 * param1 s l

/-! ### Answers -/

/-- Sixteen result bytes: the items named, and 00h in every other place (R144). -/
def resultBytes (bs : List Byte) : Vector Byte 16 :=
  #v[bs.getD 0 0, bs.getD 1 0, bs.getD 2 0, bs.getD 3 0, bs.getD 4 0, bs.getD 5 0, bs.getD 6 0, bs.getD 7 0,
    bs.getD 8 0, bs.getD 9 0, bs.getD 10 0, bs.getD 11 0, bs.getD 12 0, bs.getD 13 0, bs.getD 14 0, bs.getD 15 0]

/-- R144: a command is answered. -/
def State.answer (s : State) (code : ResultCode) (bs : List Byte) : State :=
  { s with cmd := { s.cmd with result := code, params := resultBytes bs } }

/-- R146: the unit is held BUSY; the parameter area keeps what it holds. -/
def State.hold (s : State) (h : HeldCommand) : State :=
  { s with cmd := { s.cmd with busy := some h, result := .busy } }

/-- R146: the end of a held command: its answer is written and BUSY is cleared. -/
def State.release (s : State) (code : ResultCode) (bs : List Byte) : State :=
  { s with cmd := { s.cmd with result := code, params := resultBytes bs, busy := none } }

/-- R145: a CMD write under BUSY sets the REFUSED flag and raises the cause. -/
def State.refuse (s : State) : State :=
  ({ s with cmd := { s.cmd with refused := true } }).raise .refused

/-- R143: the command register takes the written code. -/
def State.setCommand (s : State) (code : Byte) : State := { s with cmd := { s.cmd with command := code } }

/-! ### Events -/

/-- What an event other than a change of XRST# or of power does: nothing while the part is in chip reset
(R40, R140), otherwise its effect. -/
def outOfReset (s : State) (effect : State → State) : Host.Outcome State Fault Refusal :=
  .next (if s.pins.xrst then s else effect s)

/-- R143, R145: the command event for a code that names a command. `whileLoading` marks the three commands
that are answered while the Image Loader runs; `owner` is the owning block. -/
def takeCommand (code : Byte) (whileLoading : Bool) (owner : State → State) (s : State) : State :=
  if s.cmd.busy.isSome then s.refuse
  else if loaderRunning s && !whileLoading then (s.setCommand code).answer .loaderActive []
  else owner (s.setCommand code)

/-- R65, R140: a window access. It finds no data-port access of an earlier one outstanding. -/
def windowEvent (s : State) (effect : State → State) : Host.Outcome State Fault Refusal :=
  outOfReset s fun s => effect s.dataEnded

/-- A window write of CMD with the code of a command (R140, R143). -/
def commandEvent (code : Byte) (whileLoading : Bool) (owner : State → State) (s : State) :
    Host.Outcome State Fault Refusal :=
  windowEvent s (takeCommand code whileLoading owner)

/-- R45: the handle check of a segment command: outside 1 to 48 is BAD_PARAM, a FREE descriptor NOT_FOUND;
otherwise the command goes on with the handle. -/
def withHandle (number : Nat) (s : State) (go : Handle → State) : State :=
  match handleOf number with
  | none => s.answer .badParam []
  | some h => if (s.segment h).isFree then s.answer .notFound [] else go h

end Sys2Proof.Machine
end

