-- ==== Sys2Proof/Machine/Log.lean ====
section
/-! DEFINITION. The Event Log's taking of a record (spec/07, 7.2). -/

namespace Sys2Proof.Machine

/-- What the Fetch Port Interface supplies of a record: every field but the sequence (R124). -/
structure Handover where
  address : FetchAddr
  entryIndex : Nat
  generation : Generation
  body : RecordBody
  deriving DecidableEq, Repr

/-- The record with its sequence number. -/
def Handover.numbered (h : Handover) (n : BitVec 16) : LogRecord :=
  { sequence := n, address := h.address, entryIndex := h.entryIndex, generation := h.generation,
    body := h.body }

/-- R128: the record is appended and takes its number. -/
def EventLog.append (l : EventLog) (h : Handover) : EventLog :=
  { records := l.records ++ [h.numbered l.nextSequence], nextSequence := l.nextSequence + 1 }

/-- R129: the number offered is that of the oldest record held. -/
def EventLog.atLimit (l : EventLog) : Bool :=
  match l.records with
  | [] => false
  | r :: _ => l.nextSequence == r.sequence

/-- R129: the record is dropped; it takes a number except at the limit. -/
def EventLog.drop (l : EventLog) : EventLog :=
  if l.atLimit then l else { l with nextSequence := l.nextSequence + 1 }

/-- R126 to R129: a record is handed to the Event Log. -/
def State.handOver (s : State) (h : Handover) : State :=
  if s.log.records.length < Config.logRecords then ({ s with log := s.log.append h }).raise .logged
  else ({ s with log := s.log.drop }).raise .overflow

end Sys2Proof.Machine
end

