-- ==== Sys2Proof/Machine/Tables.lean ====
section
/-! DEFINITION. Overlay entries and the Table Store: resolution, hits, the staged edits, the switch and
the revert of the tables (spec/01, spec/04). -/

namespace Sys2Proof.Machine

/-! ### Resolution (1.2) -/

/-- One past the last address an entry covers. -/
def Entry.top (e : Entry) : Nat := e.base.toNat + e.length

/-- The range [base, base + length) holds the address (R1). -/
def Entry.covers (e : Entry) (a : FetchAddr) : Bool := e.base.toNat ≤ a.toNat && a.toNat < e.top

/-- R3: the applies field matches the fetch kind. -/
def Applies.matches : Applies → FetchKind → Bool
  | .code, .code => true
  | .code, .data => false
  | .data, .code => false
  | .data, .data => true
  | .any, .code => true
  | .any, .data => true

/-- The entry whose range holds the address, with its index: there is at most one (R9). -/
def lookup (es : List Entry) (a : FetchAddr) : Option (Entry × Nat) :=
  es.zipIdx.find? fun p => p.1.covers a

/-- What the Overlay Lookup Unit answers for one word (R4). -/
inductive Resolution where
  | passthrough
  | replace (segment : Handle) (offset : Nat) (index : Nat)
  | fill (value : Word) (index : Nat)
  | trap (value : Word) (index : Nat)
  | countOnly (index : Nat)
  deriving DecidableEq, Repr

/-- R4: the resolution of an address and fetch kind against a table. -/
def resolve (es : List Entry) (a : FetchAddr) (k : FetchKind) : Resolution :=
  match lookup es a with
  | none => .passthrough
  | some (e, i) =>
    if e.applies.matches k then
      match e.body with
      | .replace h o => .replace h (o + (a.toNat - e.base.toNat)) i
      | .fill v => .fill v i
      | .trap v => .trap v i
      | .count => .countOnly i
    else .passthrough

/-- The entry index a resolution carries (R4). -/
def Resolution.index? : Resolution → Option Nat
  | .passthrough => none
  | .replace _ _ i => some i
  | .fill _ i => some i
  | .trap _ i => some i
  | .countOnly i => some i

/-- R37: the index of the REPLACE or FILL entry that shadows a write, whatever its applies field. -/
def shadowIndex (es : List Entry) (a : FetchAddr) : Option Nat :=
  match lookup es a with
  | none => none
  | some (e, i) =>
    match e.body with
    | .replace _ _ => some i
    | .fill _ => some i
    | .trap _ => none
    | .count => none

/-! ### Hits (R8, R32, R33) -/

/-- R8: one hit more, saturating. -/
def Entry.hit (e : Entry) : Entry := { e with hits := if e.hits < Config.hitsMax then e.hits + 1 else e.hits }

/-- The entry with its count at 0. -/
def Entry.unhit (e : Entry) : Entry := { e with hits := 0 }

/-- R32: one hit is counted in the LIVE entry at the index. -/
def State.countHit (s : State) (i : Nat) : State :=
  { s with tables := { s.tables with live := { s.tables.live with
      entries := s.tables.live.entries.modify i Entry.hit } } }

/-! ### Staged edits (spec/04) -/

/-- The fields of an insert as they are given, before any check (R73). -/
structure InsertRequest where
  base : Nat
  length : Nat
  kind : Byte
  applies : Byte
  segment : Nat
  offset : Nat
  value : Word
  deriving DecidableEq, Repr

/-- R73: the fields the kind uses, if the kind byte names a kind and the segment is in range. -/
def InsertRequest.body (r : InsertRequest) : Option EntryBody :=
  if r.kind = 1 then
    match handleOf r.segment with
    | none => none
    | some h => if r.offset > Config.maxOffset then none else some (.replace h r.offset)
  else if r.kind = 2 then some (.fill r.value)
  else if r.kind = 3 then some (.trap r.value)
  else if r.kind = 4 then some .count
  else none

/-- R75: the entry a request asks for, or none where a field is out of range. -/
def InsertRequest.entry (r : InsertRequest) : Option Entry :=
  match r.body, appliesOf r.applies with
  | some b, some a =>
    if r.base < Config.fetchTop ∧ 1 ≤ r.length ∧ r.length ≤ Config.maxLength
        ∧ r.base + r.length ≤ Config.fetchTop then
      some { base := BitVec.ofNat 19 r.base, length := r.length, applies := a, body := b, hits := 0 }
    else none
  | _, _ => none

/-- R77: the two ranges overlap. -/
def Entry.overlaps (e f : Entry) : Bool := e.base.toNat < f.top && f.base.toNat < e.top

/-- R77: the lowest index of a staged entry that overlaps the new one. -/
def overlapIndex (es : List Entry) (e : Entry) : Option Nat := es.findIdx? fun f => e.overlaps f

/-- R78: the index the new entry takes. -/
def insertIndex (es : List Entry) (e : Entry) : Nat := es.countP fun f => f.base.toNat < e.base.toNat

/-- R76: what the Patch Memory Controller's state refuses of an entry. -/
def segmentRefusal (s : State) (e : Entry) : Option ResultCode :=
  match e.body with
  | .replace h o =>
    match s.segment h with
    | .sealed _ d => if o + e.length > d.length then some .range else none
    | .free => some .wrongState
    | .opened _ => some .wrongState
    | .sealing _ _ => some .wrongState
    | .condemned _ _ => some .wrongState
  | .fill _ => none
  | .trap _ => none
  | .count => none

/-- The answer of an insert (R74, R78). -/
inductive InsertAnswer where
  | refused (code : ResultCode) (conflict : Nat)
  | taken (entry : Entry) (index : Nat)
  deriving DecidableEq, Repr

/-- R74: the checks 2 to 7 of an insert, in their order. -/
def insertAnswer (s : State) (r : InsertRequest) : InsertAnswer :=
  if s.tables.stagedLock then .refused .stageLocked 0
  else match r.entry with
    | none => .refused .badParam 0
    | some e => match segmentRefusal s e with
      | some c => .refused c 0
      | none =>
        if s.tables.staged.length ≥ Config.tableEntries then .refused .tableFull 0
        else match overlapIndex s.tables.staged e with
          | some i => .refused .overlap i
          | none => .taken e (insertIndex s.tables.staged e)

/-- STAGED replaced. -/
def State.setStaged (s : State) (es : List Entry) : State := { s with tables := { s.tables with staged := es } }

/-- The lock of STAGED set or cleared (R13). -/
def State.setLock (s : State) (b : Bool) : State := { s with tables := { s.tables with stagedLock := b } }

/-- R78: the entry is placed and its increment claim made. -/
def State.placeEntry (s : State) (e : Entry) (i : Nat) : State :=
  (s.setStaged (s.tables.staged.insertIdx i e)).addEntry e

/-- R81: every staged entry is removed with its decrement claim. -/
def State.clearStaged (s : State) : State := (s.setStaged []).dropEntries s.tables.staged

/-- R82: STAGED becomes a copy of LIVE with hits 0; the decrements come before the increments. -/
def State.copyLive (s : State) : State :=
  (s.clearStaged.setStaged (s.tables.live.entries.map Entry.unhit)).addEntries s.tables.live.entries

/-! ### Movements of tables (1.4, 1.6) -/

/-- R12: the value after the counter, where the value after 65535 is 1. -/
def nextNumber (g : Generation) : Generation := if g = 0xFFFF then 1 else g + 1

/-- R12: the number a switch gives, from the counter and the outgoing LIVE's number. -/
def switchNumber (counter live : Generation) : Generation :=
  if nextNumber counter = live then nextNumber (nextNumber counter) else nextNumber counter

/-- The entries of PRIOR; none while it is absent (R11). -/
def TableStore.priorEntries (t : TableStore) : List Entry := (t.prior.map (·.entries)).getD []

/-- R14, R15: the switch of the tables under the new number. -/
def State.switchTables (s : State) (n : Generation) : State :=
  let s := s.dropEntries s.tables.priorEntries
  { s with tables :=
      { staged := [], stagedLock := false
        live := { entries := s.tables.staged.map Entry.unhit, generation := n }
        prior := some s.tables.live } }

/-- R16: the revert of the tables. It is ordered only with PRIOR present. -/
def State.revertTables (s : State) : State :=
  match s.tables.prior with
  | none => s
  | some p => { s with tables := { s.tables with live := p, prior := some s.tables.live } }

/-! ### Layout of an entry (R181) -/

/-- The handle number and offset of a REPLACE entry, and zeros for the others (R1, R181). -/
def EntryBody.segmentBytes : EntryBody → List Byte
  | .replace h o => byte (handleNumber h) :: bytes2 o
  | .fill _ => [0, 0, 0]
  | .trap _ => [0, 0, 0]
  | .count => [0, 0, 0]

/-- The value of a FILL or TRAP entry, and zeros for the others (R1, R181). -/
def EntryBody.valueBytes : EntryBody → List Byte
  | .replace _ _ => [0, 0]
  | .fill v => bytes2 v.toNat
  | .trap v => bytes2 v.toNat
  | .count => [0, 0]

/-- The twelve bytes of an entry (R181). -/
def Entry.layout (e : Entry) : List Byte :=
  bytes3 e.base.toNat ++ bytes2 e.length ++ [byte e.body.kindCode, byte e.applies.number]
    ++ e.body.segmentBytes ++ e.body.valueBytes

end Sys2Proof.Machine
end

