-- ==== Sys2Proof/Machine/Generation.lean ====
section
/-! DEFINITION. The Generation Controller's movements: the switch, the revert, the tick and the automatic
decisions of probation (spec/05, spec/06). -/

namespace Sys2Proof.Machine

/-- The generation state replaced. -/
def State.setGenState (s : State) (g : GenState) : State := { s with gen := { s.gen with state := g } }

/-- R104: the pending commit, if there is one. -/
def GenState.pendingCommit : GenState → Option PendingCommit
  | .steady => none
  | .commitPending c => some c
  | .probation => none
  | .revertWaiting _ => none

/-- R93: the switch of a pending commit, in its five steps. -/
def State.takeSwitch (s : State) (c : PendingCommit) : State :=
  let n := switchNumber s.gen.counter s.tables.live.generation
  let s := s.switchTables n
  ({ s with gen :=
      { state := if c.probation = 0 then .steady else .probation
        counter := n
        timer := c.probation
        resetCount := 0
        tolerance := c.tolerance
        lastOutcome := .none } }).raise .switched

/-- R11: PRIOR's number, 0 if PRIOR is absent. -/
def TableStore.priorNumber (t : TableStore) : Generation := (t.prior.map (·.generation)).getD 0

/-- The result bytes of a REVERT (R183). -/
def revertBytes (s : State) : List Byte :=
  bytes2 s.tables.live.generation.toNat ++ bytes2 s.tables.priorNumber.toNat

/-- R102: a waiting revert is taken. -/
def State.takeRevert (s : State) (o : RevertOrigin) : State :=
  let s := s.revertTables.setGenState .steady
  match o with
  | .manual => s.release .ok (revertBytes s)
  | .expiry => s.raise .reverted
  | .resets => s.raise .reverted

/-- A NOW commit or a revert waits for fetch idle (R90, R102). -/
def movementWaits (s : State) : Bool :=
  match s.gen.state with
  | .steady => false
  | .commitPending c => c.mode == .now
  | .probation => false
  | .revertWaiting _ => true

/-- The movement that waits for fetch idle is taken (R90, R102). -/
def State.takeMovement (s : State) : State :=
  match s.gen.state with
  | .steady => s
  | .commitPending c => if c.mode = .now then s.takeSwitch c else s
  | .probation => s
  | .revertWaiting o => s.takeRevert o

/-- R111: expiry is decided. -/
def State.decideExpiry (s : State) : State :=
  { s with gen := { s.gen with timer := 0, state := .revertWaiting .expiry, lastOutcome := .expiredReverted } }

/-- R111: a tick would lower the timer of a trial from 1 to 0. -/
def expiryDue (s : State) : Bool := s.gen.state == .probation && s.gen.timer == 1

/-- R110, R111: what a tick does to the trial. A timer at 0 in PROBATION, which no run reaches, stays. -/
def State.tickTrial (s : State) : State :=
  match s.gen.state with
  | .steady => s
  | .commitPending _ => s
  | .probation =>
    if s.gen.timer = 1 then s.decideExpiry
    else if s.gen.timer = 0 then s
    else { s with gen := { s.gen with timer := s.gen.timer - 1 } }
  | .revertWaiting _ => s

/-- R112: the assertion would bring the count above the tolerance. -/
def resetExceeds (s : State) : Bool := s.gen.resetCount + 1 > s.gen.tolerance.val

/-- R112, R113: a target reset counted in PROBATION, with the decision of a reset excess. -/
def State.countReset (s : State) : State :=
  if resetExceeds s then
    { s with gen := { s.gen with
        resetCount := s.gen.resetCount + 1
        state := .revertWaiting .resets
        lastOutcome := .resetsReverted } }
  else { s with gen := { s.gen with resetCount := s.gen.resetCount + 1 } }

/-- R99: what an assertion of TRST# does at the Generation Controller, before the movement it gives its
fetch idle. -/
def State.targetResetGen (s : State) : State :=
  match s.gen.state with
  | .steady => s
  | .commitPending c => if c.mode = .atTargetReset then s.takeSwitch c else s
  | .probation => s.countReset
  | .revertWaiting _ => s

/-- R89: a commit is recorded and STAGED is locked. -/
def State.recordCommit (s : State) (c : PendingCommit) : State :=
  (s.setLock true).setGenState (.commitPending c)

end Sys2Proof.Machine
end

