-- ==== Sys2Proof/Machine/Fetch.lean ====
section
/-! DEFINITION. The Fetch Port Interface: acceptance, the serving of words, the end of a request, and the
taking of what waits for fetch idle (spec/02). -/

namespace Sys2Proof.Machine

/-! ### Requests (2.1) -/

/-- R20: the words a length code names. -/
def fetchWords : FetchLength → Nat
  | .one => 1
  | .two => 2
  | .four => 4
  | .eight => 8

/-- R22: the address bits that are cleared. -/
def fetchLowBits : FetchLength → FetchAddr
  | .one => 0
  | .two => 1
  | .four => 3
  | .eight => 7

/-- R22: the aligned first address. -/
def alignAddress (a : FetchAddr) (l : FetchLength) : FetchAddr := a &&& ~~~fetchLowBits l

/-- The address of the word being worked on (R22). -/
def Request.address (r : Request) : FetchAddr := r.first + BitVec.ofNat 19 (fetchWords r.length - r.left)

/-- The fetch port of a state replaced. -/
def State.setFetch (s : State) (f : FetchPort) : State := { s with fetch := f }

/-- R26: a ROM port cycle is started at an address. -/
def State.startRom (s : State) (a : FetchAddr) (c : RomCycle) : State :=
  s.setFetch { s.fetch with romAddress := a, romCycle := c }

/-- The ROM port cycle ends, or is abandoned: the strobes are released and RA stays (R26). -/
def State.endRom (s : State) : State := s.setFetch { s.fetch with romCycle := .none }

/-! ### Serving words (2.3) -/

/-- R31: one word less to handle; at 0 the request ends. -/
def Request.next (r : Request) : Option Request := if r.left ≤ 1 then none else some { r with left := r.left - 1 }

/-- FRDY marks a word (R30, R36) and the request has one word less. -/
def State.beat (s : State) (r : Request) (d : Option Word) : State :=
  s.setFetch { s.fetch with
    beats := s.fetch.beats ++ [{ address := r.address, data := d }]
    request := r.next }

/-- R30, step 2: the hit of a delivered word. -/
def State.countResolution (s : State) (x : Resolution) : State :=
  match x.index? with
  | none => s
  | some i => s.countHit i

/-- R30, step 3: the TRAP record of a delivered word. -/
def State.logTrap (s : State) (r : Request) (x : Resolution) : State :=
  match x with
  | .passthrough => s
  | .replace _ _ _ => s
  | .fill _ _ => s
  | .trap _ i =>
    s.handOver { address := r.address, entryIndex := i, generation := r.latch, body := .trap r.kind }
  | .countOnly _ => s

/-- The resolution of the word being worked on, against the latched table, which is LIVE (R25). -/
def State.resolveWord (s : State) (r : Request) : Resolution :=
  resolve s.tables.live.entries r.address r.kind

/-- R30: a word is delivered. -/
def State.deliver (s : State) (r : Request) (w : Word) : State :=
  ((s.countResolution (s.resolveWord r)).logTrap r (s.resolveWord r)).beat r (some w)

/-- The word is not ready at once: it comes from the ROM or from patch RAM (R25, R29). -/
def Resolution.waits : Resolution → Bool
  | .passthrough => true
  | .countOnly _ => true
  | .replace _ _ _ => true
  | .fill _ _ => false
  | .trap _ _ => false

/-- R25 to R28: the access that the word being worked on needs is started; a word that is ready at once needs none. -/
def State.startWord (s : State) : State :=
  match s.fetch.request with
  | none => s
  | some r =>
    match s.resolveWord r with
    | .passthrough => s.startRom r.address .read
    | .countOnly _ => s.startRom r.address .read
    | .replace h o _ => s.setArbiter (s.mem.arbiter.claimFetch { handle := h, offset := o })
    | .fill _ _ => s
    | .trap _ _ => s

/-- R25, R29: the words of a read request are served in order until one must wait for the ROM or for patch
RAM, or the request ends. The first argument bounds the words that are ready at once; a request has at
most eight. -/
def serve : Nat → State → State
  | 0, s => s
  | n + 1, s =>
    match s.fetch.request with
    | none => s
    | some r =>
      match s.resolveWord r with
      | .passthrough => s.startWord
      | .countOnly _ => s.startWord
      | .replace _ _ _ => s.startWord
      | .fill v _ => serve n (s.deliver r v)
      | .trap v _ => serve n (s.deliver r v)

/-- R29: the word being worked on in a read request is ready at once and not yet delivered. It is so only after an
acceptance that has taken a switch (`State.accept`). -/
def wordReady (s : State) : Bool :=
  match s.fetch.request with
  | none => false
  | some r => r.dir == .read && !(s.resolveWord r).waits

/-- R37: the SHADOW record of a written word. -/
def State.logShadow (s : State) (r : Request) (w : Word) : State :=
  match shadowIndex s.tables.live.entries r.address with
  | none => s
  | some i =>
    s.handOver { address := r.address, entryIndex := i, generation := r.latch, body := .shadow w }

/-! ### Acceptance (R21 to R23, R91) -/

/-- R91: the presentation meets the switch address of a pending AT_ADDRESS commit. -/
def Presentation.meets (p : Presentation) (a : FetchAddr) : Bool :=
  p.dir == .read && p.kind == .code && alignAddress p.address p.length == a

/-- R91: an acceptance of the presentation takes the AT_ADDRESS switch of the pending commit. -/
def switchMet (s : State) (p : Presentation) : Bool :=
  match s.gen.state.pendingCommit with
  | none => false
  | some c => match c.mode with
    | .now => false
    | .atAddress a => p.meets a
    | .atTargetReset => false

/-- R91: an acceptance first takes the AT_ADDRESS switch it meets. -/
def State.switchAtAccept (s : State) (p : Presentation) : State :=
  match s.gen.state with
  | .steady => s
  | .commitPending c =>
    match c.mode with
    | .now => s
    | .atAddress a => if p.meets a then s.takeSwitch c else s
    | .atTargetReset => s
  | .probation => s
  | .revertWaiting _ => s

/-- The request an acceptance fills from the lines and the current LIVE (R21 to R23). -/
def Presentation.request (p : Presentation) (latch : Generation) : Request :=
  { first := alignAddress p.address p.length, length := p.length, kind := p.kind, dir := p.dir,
    latch := latch, left := fetchWords p.length }

/-- R21, R91: acceptance of a presentation, one event with the switch it meets. A read is served as far as it goes at once,
a write starts its first ROM cycle. After a switch the first word is started, but not yet delivered where it is ready at
once: a CNT_CLEAR may fall between the switch and the first hit in the new LIVE (R17; notes/assumptions/1.md). -/
def State.accept (s : State) (p : Presentation) : State :=
  let moved := s.switchAtAccept p
  let r := p.request moved.tables.live.generation
  let t := moved.setFetch { s.fetch with standing := none, request := some r, beats := [] }
  match p.dir with
  | .read => if switchMet s p then t.startWord else serve 8 t
  | .write => t.startRom r.address (.write p.data)

/-- R21: the presentation that could be accepted now. -/
def acceptable (s : State) : Option Presentation :=
  if s.fetch.request.isSome || s.pins.trst || s.pins.xrst then none else s.fetch.standing

/-- R21: accept the presentation that stands, if the port can. -/
def State.acceptStanding (s : State) : State :=
  match acceptable s with
  | none => s
  | some p => s.accept p

/-- R21, R29: the presentation that stands is accepted, or a request accepted with a switch is begun. -/
def State.acceptOrBegin (s : State) : State := if wordReady s then serve 8 s else s.acceptStanding

/-- R90, R101, R102, R111: a movement decided with the port idle is taken with its decision, if no presentation could be
accepted. With one, neither is taken: SWITCH, REVERT_TAKEN or FETCH_ACCEPT then says which is first (R24;
notes/assumptions/1.md). -/
def State.settle (s : State) : State :=
  if s.fetch.request.isSome || !movementWaits s || (acceptable s).isSome then s else s.takeMovement

/-- R91: the acceptance of the presentation that stands takes an AT_ADDRESS switch. -/
def switchDue (s : State) : Bool :=
  match acceptable s with
  | none => false
  | some p => switchMet s p

/-- R21: a presentation that meets an open port, or the release of TRST#, is accepted at once. Beside a movement that waits
it stands, and either may be first (R24; notes/assumptions/1.md). -/
def State.acceptOpen (s : State) : State := if movementWaits s then s else s.acceptStanding

/-- R17, R24: a movement that waits at fetch idle is taken. A presentation that stands is left for its own acceptance. -/
def State.moveFirst (s : State) : State :=
  if s.fetch.request.isSome || !movementWaits s then s else s.takeMovement

/-! ### Ends of requests (R31, R38) -/

/-- R38, R40: the request in progress is ended, its ROM cycle abandoned and its claim withdrawn. -/
def State.endRequest (s : State) : State :=
  let s := s.setFetch { s.fetch with request := none, romCycle := .none }
  s.setArbiter s.mem.arbiter.withdrawFetch

/-- R38, R99: an assertion of TRST#. -/
def State.targetReset (s : State) : State :=
  let s := { s with pins := { s.pins with trst := true } }
  s.endRequest.targetResetGen.settle

end Sys2Proof.Machine
end

