-- ==== Sys2Proof/Machine/ImageLoad.lean ====
section
/-! DEFINITION. The Image Loader's shared operations: slots, rollback, the end of a run, the header and the
body records (spec/09), and the CRC engine's job, which serves seals of both kinds (R61 to R63). -/

namespace Sys2Proof.Machine

/-! ### The record -/

/-- The loader's record replaced. -/
def State.setLoader (s : State) (l : Loader) : State := { s with loader := l }

/-- R160: the flash address of a slot. -/
def slotAddress : Slot → FlashAddr
  | .a => 0x000000
  | .b => 0x010000

/-- R159: the four bytes sent on SDO at the start of a transaction. -/
def readCommand (a : FlashAddr) : List Byte :=
  [0x03, byte (a.toNat / 65536), byte (a.toNat / 256), byte a.toNat]

/-- R160: a slot begins, in a transaction of its own. -/
def State.startSlot (s : State) (x : Slot) : State :=
  s.setLoader { s.loader with slot := some x, phase := .header, transaction := some (slotAddress x) }

/-- R174: the outcome record with one slot's report written. -/
def OutcomeRecord.report (o : OutcomeRecord) (x : Slot) (r : SlotReport) : OutcomeRecord :=
  match x with
  | .a => { o with slotA := r }
  | .b => { o with slotB := r }

/-- The report of the current slot is written. -/
def Loader.report (l : Loader) (r : SlotReport) : Loader :=
  match l.slot with
  | none => l
  | some x => { l with outcome := l.outcome.report x r }

/-- R173: the end of a run, with the outcome record completed. -/
def State.endRun (s : State) (o : OutcomeRecord) : State :=
  (s.setLoader { s.loader with outcome := o, state := .done, phase := .none, slot := none }).raise .loaderDone

/-! ### Rollback and failure of a slot (R170 to R172) -/

/-- R171, step 2: the slot's segments are freed in map order. -/
def State.freeMap (s : State) : State := s.loader.segmentMap.foldl State.freeSegment s

/-- R171, step 3: the Patch Memory Controller's values of R68, apart from the RAM content. -/
def PatchMemory.rollback (m : PatchMemory) : PatchMemory := { memReset with ram := m.ram }

/-- R171, step 4. -/
def Loader.rollback (l : Loader) : Loader :=
  { l with header := none, segmentMap := [], bodyRead := 0, recordsTaken := 0, remainder := crc32Init,
           current := none }

/-- R171: the rollback, in its order. -/
def State.rollback (s : State) : State :=
  let s := s.clearStaged.freeMap
  { s with tables := tablesReset, gen := genReset, mem := s.mem.rollback, loader := s.loader.rollback }

/-- R172: after a failure slot A gives way to slot B, and slot B ends the run. -/
def State.fallBack (s : State) : State :=
  match s.loader.slot with
  | none => s
  | some .a => s.startSlot .b
  | some .b => s.endRun { s.loader.outcome with overall := .noValidImage }

/-- R170: a slot fails, with its result and record index. -/
def State.failSlot (s : State) (r : SlotResult) (index : Nat) : State :=
  let s := s.setLoader { s.loader.report { result := r, index := index } with transaction := none }
  s.rollback.fallBack

/-! ### The header (R161 to R163, R185) -/

/-- The first 14 bytes, which the header CRC covers (R162). -/
def headerBody (b : Vector Byte 16) : List Byte :=
  [b[0], b[1], b[2], b[3], b[4], b[5], b[6], b[7], b[8], b[9], b[10], b[11], b[12], b[13]]

/-- R185: the nine fields at their byte positions. -/
def parseHeader (b : Vector Byte 16) : ImageHeader :=
  { mark := wordOf b[1] b[0], format := b[2], flags := b[3], tolerance := b[4],
    probation := wordOf b[6] b[5], recordCount := b[7], bodyLength := wordOf b[9] b[8],
    bodyCrc := wordOf b[13] b[12] ++ wordOf b[11] b[10], headerCrc := wordOf b[15] b[14] }

/-- R185: the probation bit of the flags. -/
def ImageHeader.asksTrial (h : ImageHeader) : Bool := h.flags.getLsbD 0

/-- R163: the first check that fails, in order. -/
def headerFailure (b : Vector Byte 16) : Option SlotResult :=
  let h := parseHeader b
  if h.mark ≠ 0x4F36 then some .noImage
  else if h.headerCrc ≠ crc16 (headerBody b) then some .headerBad
  else if h.format ≠ 1 then some .headerBad
  else if h.tolerance.toNat > 7 ∨ h.recordCount = 0 ∨ h.recordCount.toNat > Config.maxRecords
      ∨ h.bodyLength = 0 ∨ h.bodyLength.toNat > Config.maxBody then some .headerBad
  else if h.asksTrial ∧ h.probation = 0 then some .headerBad
  else none

/-- R163: a header that passes. -/
def Loader.beginBody (l : Loader) (h : ImageHeader) : Loader :=
  { l with header := some h, bodyRead := 0, recordsTaken := 0, segmentMap := [], remainder := crc32Init,
           current := none, phase := .records }

/-- R169: the commit the header asks for. -/
def ImageHeader.commit (h : ImageHeader) : PendingCommit :=
  if h.asksTrial then { mode := .now, probation := h.probation, tolerance := Fin.ofNat 8 h.tolerance.toNat }
  else { mode := .now, probation := 0, tolerance := 0 }

/-! ### The body (R164) -/

/-- The loader is running in this phase. -/
def inPhase (s : State) (p : LoaderPhase) : Bool := loaderRunning s && s.loader.phase == p

/-- The loader waits for the type byte of the next record. -/
def atRecord (s : State) : Bool := inPhase s .records && s.loader.current.isNone

/-- The body length the header gives. -/
def bodyLength (s : State) : Nat := (s.loader.header.map fun h => h.bodyLength.toNat).getD 0

/-- Body bytes not yet read. -/
def bodyLeft (s : State) : Nat := bodyLength s - s.loader.bodyRead

/-- R164: body bytes are received and folded. -/
def State.readBody (s : State) (bs : List Byte) : State :=
  s.setLoader { s.loader with
    bodyRead := s.loader.bodyRead + bs.length
    remainder := bs.foldl crc32Byte s.loader.remainder }

/-- The current record fails the slot, under its own index. -/
def State.failRecord (s : State) (r : SlotResult) : State := s.failSlot r s.loader.recordsTaken

/-- R164: a record is completed. -/
def State.completeRecord (s : State) : State :=
  s.setLoader { s.loader with recordsTaken := s.loader.recordsTaken + 1, current := none, phase := .records }

/-- R164, checks 1 to 3: a record whose fixed part is these bytes is read and acted on. -/
def State.record (s : State) (fixed : List Byte) (act : State → State) : State :=
  if !atRecord s then s
  else if bodyLeft s < fixed.length then s.failRecord .recordBad
  else act (s.readBody fixed)

/-! ### Seals (R61 to R63, R66) -/

/-- R61: a seal of an OPEN segment is taken: it becomes SEALING and the CRC engine gets its job. -/
def State.startSeal (s : State) (h : Handle) (run : Run) (length : Nat) (expected : Crc32)
    (forLoader : Bool) : State :=
  let s := s.setSegment h (.sealing run length)
  { s with mem := { s.mem with
      crcJob := some { handle := h, length := length, expected := expected, remainder := crc32Init,
                       offset := 0, forLoader := forLoader }
      arbiter := s.mem.arbiter.claimCrc } }

/-- R63: the descriptor after the comparison. -/
def Segment.afterSeal (g : Segment) (computed expected : Crc32) : Segment :=
  match g with
  | .free => .free
  | .opened r => .opened r
  | .sealing r n =>
    if computed = expected then .sealed r { length := n, crc := computed, references := 0 } else .opened r
  | .sealed r d => .sealed r d
  | .condemned r d => .condemned r d

/-- R63, R66, R166: the report of a completed seal. -/
def State.reportSeal (s : State) (j : CrcJob) (computed : Crc32) : State :=
  if j.forLoader then
    (if computed = j.expected then s.completeRecord else s.failRecord .sealCrc)
  else
    (s.release (if computed = j.expected then .ok else .crcMismatch) (bytes4 computed.toNat)).raise .cmdDone

/-- R62, R63: a CRC read ends. Its word is folded; after the last word the seal completes, and before it the
claim for the next offset is presented. -/
def State.foldCrcWord (s : State) (j : CrcJob) : State :=
  let r := crc32Word j.remainder (s.segmentWord j.handle j.offset)
  let s := s.setArbiter s.mem.arbiter.finish
  if j.offset + 1 < j.length then
    { s with mem := { s.mem with
        crcJob := some { j with remainder := r, offset := j.offset + 1 }
        arbiter := s.mem.arbiter.claimCrc } }
  else
    let s := s.setSegment j.handle ((s.segment j.handle).afterSeal (crc32Final r) j.expected)
    let s := { s with mem := { s.mem with crcJob := none, arbiter := s.mem.arbiter.grant } }
    s.reportSeal j (crc32Final r)

/-- The job whose CRC read has the RAM port (R65). -/
def servedJob (s : State) : Option CrcJob :=
  match s.mem.arbiter.serving with
  | none => none
  | some (.fetchRead _) => none
  | some .discarded => none
  | some .dataAccess => none
  | some .crcRead => s.mem.crcJob

end Sys2Proof.Machine
end

