-- ==== Sys2Proof/Machine/Serial.lean ====
section
/-! DEFINITION. The serial flash link as the part drives it (R159, R160): the levels of SSEL#, SCK and SDO between
steps, the bytes sent in a transaction, and the levels that carry them. -/

namespace Sys2Proof.Machine

/-- The levels of the three outputs of the link; `true` is high (R186). -/
structure SpiLevels where
  ssel : Bool
  sck : Bool
  sdo : Bool
  deriving DecidableEq, Repr

/-! ### Outputs of the state -/

/-- R159: the levels between steps. SCK idles low, SDO is low between transactions and while data bytes are clocked, and
SSEL# is low exactly during a transaction. -/
def spiLevels (s : State) : SpiLevels := { ssel := !sselAsserted s, sck := false, sdo := false }

/-- R159, R160: the data bytes clocked in the transaction in progress: none until the header has been received, then the
16 bytes of the header and the body bytes read. -/
def clockedBytes (l : Loader) : Nat :=
  match l.header with
  | none => 0
  | some _ => 16 + l.bodyRead

/-- R159: the bytes of a transaction on SDO: the read command with its address, then zeros while data bytes are clocked. -/
def transactionBytes (a : FlashAddr) (clocked : Nat) : List Byte := readCommand a ++ List.replicate clocked 0

/-- R159: the bytes sent on SDO in the transaction in progress. -/
def sdoBytes (s : State) : List Byte :=
  match s.loader.transaction with
  | none => []
  | some a => transactionBytes a (clockedBytes s.loader)

/-- R159: the flash address of the data byte that is clocked next. -/
def nextFlashByte (s : State) : Option FlashAddr :=
  s.loader.transaction.map fun a => a + BitVec.ofNat 24 (clockedBytes s.loader)

/-! ### The levels inside a step -/

/-- R159: one bit: SDO is driven before SCK rises; SCK is low again before the next bit. -/
def spiBit (bit : Bool) : List SpiLevels :=
  [{ ssel := false, sck := false, sdo := bit }, { ssel := false, sck := true, sdo := bit }]

/-- R159: one byte, most significant bit first. -/
def spiByte (b : Byte) : List SpiLevels := (List.range 8).flatMap fun i => spiBit (b.getMsbD i)

/-- Inside a transaction, with SCK and SDO held low (R159). -/
def spiHold : SpiLevels := { ssel := false, sck := false, sdo := false }

/-- Between transactions (R159). -/
def spiIdle : SpiLevels := { ssel := true, sck := false, sdo := false }

/-- R159: a whole transaction: SSEL# is asserted, the bytes are exchanged, and SSEL# is released with SCK low. -/
def transactionWave (a : FlashAddr) (clocked : Nat) : List SpiLevels :=
  spiHold :: (transactionBytes a clocked).flatMap spiByte ++ [spiHold, spiIdle]

/-- R159: the byte of eight levels sampled on SDI, at the rising edges of SCK in order. -/
def sampledByte (sdi : Vector Bool 8) : Byte :=
  (List.range 8).foldl (fun b i => b <<< 1 ||| BitVec.ofNat 8 (sdi.toList.getD i true).toNat) 0

/-- R159, R186: a byte sampled while no flash drives SDI, whose pull-up reads as ones. -/
def undrivenByte : Byte := sampledByte (Vector.replicate 8 true)

end Sys2Proof.Machine
end

