-- ==== Sys2Proof/Machine/Window.lean ====
section
/-! DEFINITION. What a read of the register window returns (R140, R179). The reads without a row in the
opcode table have no side effect; the two data-port reads have their commands in WindowWrites.lean. -/

namespace Sys2Proof.Machine

/-- R54, R57: the data pointer, where a read at it is served. -/
def readablePointer (s : State) : Option DataPointer :=
  match s.mem.pointer with
  | none => none
  | some p =>
    if loaderRunning s then none
    else if (s.segment p.handle).isFree then none
    else if p.offset < (s.segment p.handle).capacity then some p else none

/-- The byte a read of DATA_LO returns (R57). -/
def dataLoByte (s : State) : Byte :=
  match readablePointer s with
  | none => 0xFF
  | some p => lowByte (s.segmentWord p.handle p.offset)

/-- R57, R66: the held byte a read of DATA_HI finds, none while the loader runs. -/
def heldByte (s : State) : Option Byte := if loaderRunning s then none else s.mem.readLatch

/-- The byte a read of DATA_HI returns (R57). -/
def dataHiByte (s : State) : Byte := (heldByte s).getD 0xFF

/-- R140, R179: the byte a read of an offset returns; 00h in chip reset. -/
def windowByte (s : State) (offset : BitVec 5) : Byte :=
  if s.pins.xrst then 0
  else match offset.toNat with
    | 0 => s.cmd.command
    | 1 => statusByte s
    | 2 => s.cmd.result.code
    | 3 => s.irq.pending.setWidth 8
    | 4 => s.irq.enable.setWidth 8
    | 5 => dataLoByte s
    | 6 => dataHiByte s
    | n => if h : 16 ≤ n ∧ n < 32 then s.cmd.params[n - 16] else 0

end Sys2Proof.Machine
end

