-- ==== Sys2Proof/Machine/ResetEvents.lean ====
section
/-! DEFINITION. The meanings of the reset rows: POWER_ON, XRST_ASSERT, XRST_RELEASE, TRST_ASSERT,
TRST_RELEASE, RESET_EXCESS. -/

namespace Sys2Proof.Machine

/-- Every block at its reset values (R19, R40, R68, R107, R134, R139, R141, R154); the RAM content, the pin
levels and the queue stay. -/
def State.resetBlocks (s : State) : State :=
  { s with
    fetch := fetchReset
    mem := { memReset with ram := s.mem.ram }
    tables := tablesReset
    gen := genReset
    log := logReset
    irq := irqReset
    cmd := cmdReset
    loader := loaderReset
    divider := 0
    windowData := none }

/-- R156: the start of a run, with the LDEN level sampled. -/
def State.startRun (s : State) (lden : Bool) : State :=
  s.setLoader { s.loader with state := .running, phase := .zeroFill, lden := lden }

/-- POWER_ON (R156): every block at its reset values, and a run starts. -/
def execPowerOn (lden trst freq : Bool) (s : State) : Host.Outcome State Fault Refusal :=
  .next (({ s.resetBlocks with
    mem := memReset
    pins := { xrst := false, trst := trst, freq := freq } }).startRun lden)

/-- XRST_ASSERT (R40, R67, R107, R134, R139, R153, R176): everything ends and every block takes its reset
values. -/
def execXrstAssert (s : State) : Host.Outcome State Fault Refusal :=
  .next (if s.pins.xrst then s
    else { s.resetBlocks with pins := { s.pins with xrst := true } })

/-- XRST_RELEASE (R156): a run starts with every block at its reset values. -/
def execXrstRelease (lden : Bool) (s : State) : Host.Outcome State Fault Refusal :=
  .next (if s.pins.xrst then
      ({ s.resetBlocks with pins := { s.pins with xrst := false } }).startRun lden
    else s)

/-- TRST_ASSERT (R38, R99, R112): only the change from released to asserted acts; in chip reset it is the
level alone. -/
def execTrstAssert (s : State) : Host.Outcome State Fault Refusal :=
  .next (if s.pins.trst then s
    else if s.pins.xrst then { s with pins := { s.pins with trst := true } }
    else s.targetReset)

/-- TRST_RELEASE (R21, R38): a presentation that stands is accepted. -/
def execTrstRelease (s : State) : Host.Outcome State Fault Refusal :=
  .next (if s.pins.xrst then { s with pins := { s.pins with trst := false } }
    else if s.pins.trst then ({ s with pins := { s.pins with trst := false } }).acceptOpen
    else s)

/-- RESET_EXCESS (R113): the assertion of TRST# that brings the count above the tolerance; at any other moment
it is no event. -/
def execResetExcess (s : State) : Host.Outcome State Fault Refusal :=
  outOfReset s fun s =>
    if !s.pins.trst && s.gen.state == .probation && resetExceeds s then s.targetReset else s

end Sys2Proof.Machine
end

