-- ==== Sys2Proof/Machine/FetchEvents.lean ====
section
/-! DEFINITION. The meanings of the fetch port rows: FREQ_PRESENT, FREQ_RELEASE, FETCH_ACCEPT,
ROM_READ_DONE, ROM_WRITE_DONE, FETCH_RAM_READ_DONE. -/

namespace Sys2Proof.Machine

/-- FREQ_PRESENT (R20, R21): the change of FREQ# from released to asserted presents a request, which is
accepted at once if the port can. In chip reset it is the level alone. -/
def execFreqPresent (fa : FetchAddr) (flen : FetchLength) (fkind : FetchKind) (fwr : FetchDir) (fd : Word)
    (s : State) : Host.Outcome State Fault Refusal :=
  .next (if s.pins.freq then s
    else if s.pins.xrst then { s with pins := { s.pins with freq := true } }
    else ({ s with
      pins := { s.pins with freq := true }
      fetch := { s.fetch with
        standing := some { address := fa, length := flen, kind := fkind, dir := fwr, data := fd } } }).acceptOpen)

/-- FREQ_RELEASE (R21): a presentation not yet accepted is withdrawn; a request in progress goes on. -/
def execFreqRelease (s : State) : Host.Outcome State Fault Refusal :=
  .next (if s.pins.freq then
      (if s.pins.xrst then { s with pins := { s.pins with freq := false } }
      else ({ s with
        pins := { s.pins with freq := false }
        fetch := { s.fetch with standing := none } }).settle)
    else s)

/-- FETCH_ACCEPT (R21, R24): the presentation that stands is accepted, ahead of a movement that waits. A request whose
acceptance has taken a switch is begun (notes/assumptions/1.md). -/
def execFetchAccept (s : State) : Host.Outcome State Fault Refusal := outOfReset s State.acceptOrBegin

/-- The read cycle's end with the word on RD (R27). -/
def State.romReadEnds (s : State) (r : Request) (rd : Word) : State :=
  serve 8 (s.endRom.deliver r rd)

/-- ROM_READ_DONE (R27, R30): without a read cycle in progress RRDY has no effect (R26). -/
def execRomReadDone (rd : Word) (s : State) : Host.Outcome State Fault Refusal :=
  outOfReset s fun s =>
    match s.fetch.romCycle, s.fetch.request with
    | .read, some r => s.romReadEnds r rd
    | _, _ => s

/-- The write cycle of the next word of a request still in progress (R35). -/
def State.nextWrite (s : State) (fd : Word) : State :=
  match s.fetch.request with
  | none => s
  | some r => s.startRom r.address (.write fd)

/-- The write cycle's end for the word `w` (R36, R37). -/
def State.romWriteEnds (s : State) (r : Request) (w fd : Word) : State :=
  ((s.endRom.logShadow r w).beat r none).nextWrite fd

/-- ROM_WRITE_DONE (R36, R37): without a write cycle in progress RRDY has no effect (R26). -/
def execRomWriteDone (fd : Word) (s : State) : Host.Outcome State Fault Refusal :=
  outOfReset s fun s =>
    match s.fetch.romCycle, s.fetch.request with
    | .write w, some r => s.romWriteEnds r w fd
    | _, _ => s

/-- The access in progress ends, and the arbiter grants a claim that waits (R65). -/
def State.freePort (s : State) : State := s.setArbiter s.mem.arbiter.finish.grant

/-- A fetch read ends with its word delivered (R28, R30). The port becomes free at its end, so a claim that waits is
granted before the next word of the request is claimed (R65). -/
def State.fetchReadEnds (s : State) (c : FetchClaim) : State :=
  let w := s.segmentWord c.handle c.offset
  let s := s.freePort
  match s.fetch.request with
  | none => s
  | some r => serve 8 (s.deliver r w)

/-- FETCH_RAM_READ_DONE (R28, R65): the fetch read that has the port ends, or the one granted at the end of a data-port
access that had it. A fetch read withdrawn while it was served has its word discarded (R38). -/
def execFetchRamReadDone (s : State) : Host.Outcome State Fault Refusal :=
  outOfReset s fun s =>
    match s.mem.arbiter.dataEnded.serving with
    | some (.fetchRead c) => s.dataEnded.fetchReadEnds c
    | some .discarded => s.freePort
    | some .dataAccess => s
    | some .crcRead => s
    | none => s

end Sys2Proof.Machine
end

