-- ==== Sys2Proof/Machine/EngineEvents.lean ====
section
/-! DEFINITION. The meanings of the rows that arise inside the part: CRC_WORD_READ, SEAL_COMPLETE, MS_TICK,
PROBATION_EXPIRY, SWITCH, REVERT_TAKEN. -/

namespace Sys2Proof.Machine

/-- CRC_WORD_READ (R62, R63, R65): the CRC read that has the port ends, or the one granted at the end of a data-port access
that had it; the read of the last word completes the seal within it. -/
def execCrcWordRead (s : State) : Host.Outcome State Fault Refusal :=
  outOfReset s fun s =>
    match servedJob s.dataEnded with
    | none => s
    | some j => s.dataEnded.foldCrcWord j

/-- SEAL_COMPLETE (R63): the CRC read of the job's last word; at any other moment it is no event. -/
def execSealComplete (s : State) : Host.Outcome State Fault Refusal :=
  outOfReset s fun s =>
    match servedJob s.dataEnded with
    | none => s
    | some j => if j.offset + 1 < j.length then s else s.dataEnded.foldCrcWord j

/-- R110: the divider passes to 0 and the tick acts on the trial; an expiry with the port idle is taken at
once (R111). -/
def State.tick (s : State) : State :=
  let t := ({ s with divider := 0 }).tickTrial
  if expiryDue s then t.settle else t

/-- MS_TICK (R110, R111). -/
def execMsTick (s : State) : Host.Outcome State Fault Refusal := outOfReset s State.tick

/-- PROBATION_EXPIRY (R111): the tick that lowers the timer from 1 to 0; at any other moment it is no event. -/
def execProbationExpiry (s : State) : Host.Outcome State Fault Refusal :=
  outOfReset s fun s => if expiryDue s then s.tick else s

/-- SWITCH (R17, R24, R90, R91, R93): a NOW commit that waits at fetch idle is switched. An AT_ADDRESS switch is taken only
within the acceptance that meets its address: where one is due, SWITCH is the event that FETCH_ACCEPT is
(notes/assumptions/4.md). An AT_TARGET_RESET switch is taken within the assertion of TRST# (R92). -/
def execSwitch (s : State) : Host.Outcome State Fault Refusal :=
  outOfReset s fun s =>
    match s.gen.state with
    | .steady => s
    | .commitPending _ => if switchDue s then s.acceptStanding else s.moveFirst
    | .probation => s
    | .revertWaiting _ => s

/-- REVERT_TAKEN (R17, R24, R102): a revert that waits at fetch idle is taken. -/
def execRevertTaken (s : State) : Host.Outcome State Fault Refusal :=
  outOfReset s fun s =>
    match s.gen.state with
    | .steady => s
    | .commitPending _ => s
    | .probation => s
    | .revertWaiting _ => s.moveFirst

/-! ### The empty queue -/

/-- R110: one CLK period of the divider, which marks a tick each time it passes from 31,999 back to 0. -/
def State.clockPeriod (s : State) : State :=
  if s.divider.val + 1 = Config.tickPeriods then s.tick else { s with divider := s.divider + 1 }

/-- A movement or an acceptance waits with the port idle (R21, R90, R102). -/
def momentWaits (s : State) : Bool := s.fetch.request.isNone && (movementWaits s || (acceptable s).isSome)

/-- The patch RAM port has a data-port access (R65). -/
def dataServed (s : State) : Bool := s.mem.arbiter.serving == some .dataAccess

/-- What a step does on an empty queue, outside chip reset: a data-port access that has the port ends
(notes/assumptions/9.md). Then nothing is left that arrives together with a word that is ready or with what waits at fetch
idle: the word is delivered, and at fetch idle a movement is taken first (notes/assumptions/1.md). Where nothing waits one
CLK period passes (notes/assumptions/5.md). -/
def emptyQueue (s : State) : Host.Outcome State Fault Refusal :=
  outOfReset s fun s =>
    if dataServed s then s.dataEnded
    else if wordReady s then serve 8 s
    else if momentWaits s then (if movementWaits s then s.moveFirst else s.acceptStanding) else s.clockPeriod

end Sys2Proof.Machine
end

