-- ==== Sys2Proof/Machine/SegmentCommands.lean ====
section
/-! DEFINITION. The meanings of the segment commands: SEG_ALLOC, SEG_SELECT, SEG_SEAL, SEG_UNSEAL, SEG_FREE,
SEG_INFO (spec/03; layouts R182). -/

namespace Sys2Proof.Machine

/-- R46, R182: the result bytes of an allocation. -/
def allocBytes (h : Handle) (r : Run) : List Byte :=
  byte (handleNumber h) :: bytes2 r.first ++ bytes2 r.count ++ bytes2 (r.count * Config.granuleWords)

/-- R46: SEG_ALLOC at the Patch Memory Controller. -/
def segAllocOwner (s : State) : State :=
  match allocAnswer s (param2 s 0 1) with
  | .refused c => s.answer c []
  | .taken h r => (s.setSegment h (.opened r)).answer .ok (allocBytes h r)

/-- SEG_ALLOC (R46, R47). -/
def execSegAlloc (s : State) : Host.Outcome State Fault Refusal := commandEvent 0x10 false segAllocOwner s

/-- R54: the pointer is set and the read latch emptied. -/
def State.setPointer (s : State) (h : Handle) (offset : Nat) : State :=
  { s with mem := { s.mem with pointer := some { handle := h, offset := offset }, readLatch := none } }

/-- R54: SEG_SELECT at the Patch Memory Controller. -/
def segSelectOwner (s : State) : State :=
  withHandle (param1 s 0) s fun h =>
    if param2 s 1 2 < (s.segment h).capacity then
      (s.setPointer h (param2 s 1 2)).answer .ok
        (byte (s.segment h).stateCode :: bytes2 (s.segment h).capacity)
    else s.answer .badParam []

/-- SEG_SELECT (R54). -/
def execSegSelect (s : State) : Host.Outcome State Fault Refusal := commandEvent 0x11 false segSelectOwner s

/-- R61: SEG_SEAL at the Patch Memory Controller: the handle, then the state, then the length. -/
def segSealOwner (s : State) : State :=
  withHandle (param1 s 0) s fun h =>
    match s.segment h with
    | .opened run =>
      if param2 s 1 2 = 0 ∨ param2 s 1 2 > (s.segment h).capacity then s.answer .badParam []
      else (s.startSeal h run (param2 s 1 2) (BitVec.ofNat 32 (param4 s 3 4 5 6)) false).hold .segSeal
    | .free => s.answer .wrongState []
    | .sealing _ _ => s.answer .wrongState []
    | .sealed _ _ => s.answer .wrongState []
    | .condemned _ _ => s.answer .wrongState []

/-- SEG_SEAL (R61, R146). -/
def execSegSeal (s : State) : Host.Outcome State Fault Refusal := commandEvent 0x12 false segSealOwner s

/-- R49: SEG_UNSEAL at the Patch Memory Controller. -/
def segUnsealOwner (s : State) : State :=
  withHandle (param1 s 0) s fun h =>
    match s.segment h with
    | .sealed run d =>
      if d.references = 0 then (s.setSegment h (.opened run)).answer .ok [] else s.answer .wrongState []
    | .free => s.answer .wrongState []
    | .opened _ => s.answer .wrongState []
    | .sealing _ _ => s.answer .wrongState []
    | .condemned _ _ => s.answer .wrongState []

/-- SEG_UNSEAL (R49). -/
def execSegUnseal (s : State) : Host.Outcome State Fault Refusal := commandEvent 0x13 false segUnsealOwner s

/-- R50, R182: the result bytes of a SEG_FREE that is taken: the state left in and the references. -/
def freeBytes (g : Segment) : List Byte := [byte g.stateCode, byte g.references]

/-- R50: SEG_FREE at the Patch Memory Controller. A refusal writes no result item (notes/assumptions/13.md). -/
def segFreeOwner (s : State) : State :=
  withHandle (param1 s 0) s fun h =>
    match s.segment h with
    | .opened _ => (s.freeSegment h).answer .ok (freeBytes ((s.freeSegment h).segment h))
    | .sealed _ _ => (s.freeSegment h).answer .ok (freeBytes ((s.freeSegment h).segment h))
    | .free => s.answer .wrongState []
    | .sealing _ _ => s.answer .wrongState []
    | .condemned _ _ => s.answer .wrongState []

/-- SEG_FREE (R50). -/
def execSegFree (s : State) : Host.Outcome State Fault Refusal := commandEvent 0x14 false segFreeOwner s

/-- R182: the first granule, 0 if FREE. -/
def Segment.firstGranule (g : Segment) : Nat := (g.run.map (·.first)).getD 0

/-- R182: the granule count, 0 if FREE. -/
def Segment.granuleCount (g : Segment) : Nat := (g.run.map (·.count)).getD 0

/-- R182: the pointer item of SEG_INFO in P12-P13 (handle number, 0 if unset). -/
def pointerHandleNumber (p : Option DataPointer) : Nat := (p.map fun p => handleNumber p.handle).getD 0

/-- R182: the field P14-P15: offset, and bit 15 set when the pointer is set. -/
def pointerField (p : Option DataPointer) : Nat := (p.map fun p => p.offset + 32768).getD 0

/-- R48, R182: the packed answer of SEG_INFO. -/
def infoBytes (s : State) (g : Segment) : List Byte :=
  bytes2 (g.stateCode + 64 * longestFreeRun s)
    ++ bytes2 (g.firstGranule + 512 * g.references)
    ++ bytes2 (g.granuleCount + 1024 * freeHandles s)
    ++ bytes2 g.sealedLength
    ++ bytes4 g.crc.toNat
    ++ bytes2 (freeGranules s + 1024 * pointerHandleNumber s.mem.pointer)
    ++ bytes2 (pointerField s.mem.pointer)

/-- R48: SEG_INFO at the Patch Memory Controller; a FREE handle is answered OK. -/
def segInfoOwner (s : State) : State :=
  match handleOf (param1 s 0) with
  | none => s.answer .badParam []
  | some h => s.answer .ok (infoBytes s (s.segment h))

/-- SEG_INFO (R48). -/
def execSegInfo (s : State) : Host.Outcome State Fault Refusal := commandEvent 0x15 false segInfoOwner s

end Sys2Proof.Machine
end

