-- ==== Sys2Proof/Machine/TableCommands.lean ====
section
/-! DEFINITION. The meanings of the table commands: STG_INSERT, STG_REMOVE, STG_CLEAR, STG_COPY_LIVE,
TBL_READ, CNT_CLEAR (spec/04, R18, R33; layouts R181). -/

namespace Sys2Proof.Machine

/-- R181: the fields of an insert in the parameter area. -/
def insertRequest (s : State) : InsertRequest :=
  { base := param3 s 0 1 2, length := param2 s 3 4, kind := param s 5, applies := param s 6,
    segment := param1 s 7, offset := param2 s 8 9, value := wordOf (param s 11) (param s 10) }

/-- R78: the references item: the named segment's count after the increment, zero for other kinds. -/
def entryReferences (s : State) (e : Entry) : Nat := (e.segment?.map fun h => (s.segment h).references).getD 0

/-- R74, R78: STG_INSERT at the Table Store. -/
def stgInsertOwner (s : State) : State :=
  match insertAnswer s (insertRequest s) with
  | .refused c conflict => s.answer c [byte conflict, byte s.tables.staged.length]
  | .taken e i =>
    (s.placeEntry e i).answer .ok
      [byte i, byte (s.placeEntry e i).tables.staged.length, byte (entryReferences (s.placeEntry e i) e)]

/-- STG_INSERT (R73 to R78). -/
def execStgInsert (s : State) : Host.Outcome State Fault Refusal := commandEvent 0x20 false stgInsertOwner s

/-- R79: the index of the staged entry with exactly this base. -/
def baseIndex (es : List Entry) (base : Nat) : Option Nat := es.findIdx? fun e => e.base.toNat == base

/-- R79, R80: the entry is taken out and its decrement claim made. -/
def State.removeEntry (s : State) (e : Entry) (i : Nat) : State :=
  (s.setStaged (s.tables.staged.eraseIdx i)).dropEntry e

/-- R79: the segment state item: zero if the entry is not REPLACE. -/
def entrySegmentState (s : State) (e : Entry) : Nat := (e.segment?.map fun h => (s.segment h).stateCode).getD 0

/-- The handle number an entry names, zero if it is not REPLACE. -/
def entrySegmentNumber (e : Entry) : Nat := (e.segment?.map handleNumber).getD 0

/-- R79, R181: a refusal of STG_REMOVE carries the entry count in P1 only. -/
def State.refuseRemove (s : State) (c : ResultCode) : State :=
  s.answer c [0, byte s.tables.staged.length]

/-- R79: STG_REMOVE at the Table Store. -/
def stgRemoveOwner (s : State) : State :=
  if s.tables.stagedLock then s.refuseRemove .stageLocked
  else if param3 s 0 1 2 ≥ Config.fetchTop then s.refuseRemove .badParam
  else match baseIndex s.tables.staged (param3 s 0 1 2) with
    | none => s.refuseRemove .notFound
    | some i => match s.tables.staged[i]? with
      | none => s.refuseRemove .notFound
      | some e =>
        (s.removeEntry e i).answer .ok
          [byte i, byte (s.removeEntry e i).tables.staged.length, byte e.body.kindCode,
            byte (entrySegmentNumber e), byte (entryReferences (s.removeEntry e i) e),
            byte (entrySegmentState (s.removeEntry e i) e)]

/-- STG_REMOVE (R79, R80). -/
def execStgRemove (s : State) : Host.Outcome State Fault Refusal := commandEvent 0x21 false stgRemoveOwner s

/-- The REPLACE entries of a table. -/
def replaceCount (es : List Entry) : Nat := es.countP fun e => e.segment?.isSome

/-- R81: STG_CLEAR at the Table Store. -/
def stgClearOwner (s : State) : State :=
  if s.tables.stagedLock then s.answer .stageLocked []
  else s.clearStaged.answer .ok [byte s.tables.staged.length, byte (replaceCount s.tables.staged)]

/-- STG_CLEAR (R81). -/
def execStgClear (s : State) : Host.Outcome State Fault Refusal := commandEvent 0x22 false stgClearOwner s

/-- R82: STG_COPY_LIVE at the Table Store. -/
def stgCopyLiveOwner (s : State) : State :=
  if s.tables.stagedLock then s.answer .stageLocked []
  else s.copyLive.answer .ok
    (byte s.tables.live.entries.length :: byte s.tables.staged.length
      :: bytes2 s.tables.live.generation.toNat)

/-- STG_COPY_LIVE (R82, R83). -/
def execStgCopyLive (s : State) : Host.Outcome State Fault Refusal :=
  commandEvent 0x23 false stgCopyLiveOwner s

/-- R18, R180: the entries of the table a selector names. -/
def selectedTable (t : TableStore) (selector : Nat) : Option (List Entry) :=
  if selector = 0 then some t.staged
  else if selector = 1 then some t.live.entries
  else if selector = 2 then some t.priorEntries
  else none

/-- R18, R181: the answer of TBL_READ for a table and an index. -/
def readBytes (es : List Entry) (i : Nat) : List Byte :=
  match es[i]? with
  | none => List.replicate 15 0 ++ [byte es.length]
  | some e => e.layout ++ bytes3 e.hits ++ [byte (es.length + 128)]

/-- R18: TBL_READ at the Table Store. -/
def tblReadOwner (s : State) : State :=
  match selectedTable s.tables (param1 s 0) with
  | none => s.answer .badParam []
  | some es => s.answer .ok (readBytes es (param1 s 1))

/-- TBL_READ (R18); it is answered while the loader runs. -/
def execTblRead (s : State) : Host.Outcome State Fault Refusal := commandEvent 0x24 true tblReadOwner s

/-- LIVE's entries replaced. -/
def State.setLiveEntries (s : State) (es : List Entry) : State :=
  { s with tables := { s.tables with live := { s.tables.live with entries := es } } }

/-- R33, R181: the result bytes of CNT_CLEAR. -/
def clearBytes (s : State) (cleared : Nat) : List Byte :=
  byte cleared :: bytes2 s.tables.live.generation.toNat

/-- R33: CNT_CLEAR at the Fetch Port Interface. -/
def cntClearOwner (s : State) : State :=
  if param1 s 0 = 0 then
    (s.setLiveEntries (s.tables.live.entries.modify (param1 s 1) Entry.unhit)).answer .ok
      (clearBytes s (if param1 s 1 < s.tables.live.entries.length then 1 else 0))
  else if param1 s 0 = 1 then
    (s.setLiveEntries (s.tables.live.entries.map Entry.unhit)).answer .ok
      (clearBytes s s.tables.live.entries.length)
  else s.answer .badParam []

/-- CNT_CLEAR (R33, R34). -/
def execCntClear (s : State) : Host.Outcome State Fault Refusal := commandEvent 0x30 false cntClearOwner s

end Sys2Proof.Machine
end

