-- ==== Sys2Proof/Machine/GenCommands.lean ====
section
/-! DEFINITION. The meanings of the generation commands: COMMIT, COMMIT_ABORT, REVERT, CONFIRM, GEN_STATUS
(spec/05, spec/06; layouts R183). -/

namespace Sys2Proof.Machine

/-- R88, R183: the mode of a COMMIT; none for a byte that names no mode or an address above 7FFFFh. -/
def commitMode (s : State) : Option CommitMode :=
  if param1 s 0 = 1 then some .now
  else if param1 s 0 = 2 then
    (if param3 s 1 2 3 < Config.fetchTop then some (.atAddress (BitVec.ofNat 19 (param3 s 1 2 3))) else none)
  else if param1 s 0 = 3 then some .atTargetReset
  else none

/-- R88: the tolerance of a COMMIT; none above 7. -/
def commitTolerance (s : State) : Option (Fin 8) :=
  if h : param1 s 6 < 8 then some ⟨param1 s 6, h⟩ else none

/-- R88, check 5: the commit the parameters ask for. -/
def commitRequest (s : State) : Option PendingCommit :=
  match commitMode s, commitTolerance s with
  | some m, some t => some { mode := m, probation := wordOf (param s 5) (param s 4), tolerance := t }
  | _, _ => none

/-- The generation state as a result item (R183). -/
def stateBytes (s : State) : List Byte := [byte s.gen.state.code]

/-- R89, R183: the result bytes of a COMMIT that is taken. -/
def commitBytes (s : State) (m : CommitMode) : List Byte :=
  byte s.tables.staged.length
    :: bytes2 (switchNumber s.gen.counter s.tables.live.generation).toNat ++ [byte m.code]

/-- R88, R89: COMMIT at the Generation Controller. -/
def commitOwner (s : State) : State :=
  match s.gen.state with
  | .commitPending _ => s.answer .commitPending (stateBytes s)
  | .probation => s.answer .inProbation (stateBytes s)
  | .revertWaiting _ => s.answer .busy (stateBytes s)
  | .steady =>
    match commitRequest s with
    | none => s.answer .badParam (stateBytes s)
    | some c => ((s.recordCommit c).answer .ok (commitBytes s c.mode)).settle

/-- COMMIT (R88 to R92). -/
def execCommit (s : State) : Host.Outcome State Fault Refusal := commandEvent 0x40 false commitOwner s

/-- R97: COMMIT_ABORT at the Generation Controller. A presentation that stood against the waiting switch is left for its
own acceptance (R24, R98). -/
def commitAbortOwner (s : State) : State :=
  match s.gen.state with
  | .commitPending c =>
    ((s.setLock false).setGenState .steady).answer .ok [byte c.mode.code, byte s.tables.staged.length]
  | .steady => s.answer .nonePending (stateBytes s)
  | .probation => s.answer .nonePending (stateBytes s)
  | .revertWaiting _ => s.answer .nonePending (stateBytes s)

/-- COMMIT_ABORT (R97, R98). -/
def execCommitAbort (s : State) : Host.Outcome State Fault Refusal :=
  commandEvent 0x41 false commitAbortOwner s

/-- R101: the controller waits with a manual revert and the unit is held. -/
def State.holdRevert (s : State) (o : LastOutcome) : State :=
  ({ s with gen := { s.gen with state := .revertWaiting .manual, lastOutcome := o } }).hold .revert

/-- R100, R101: REVERT at the Generation Controller. -/
def revertOwner (s : State) : State :=
  if s.tables.prior.isNone then s.answer .noPrior (stateBytes s)
  else match s.gen.state with
    | .commitPending _ => s.answer .commitPending (stateBytes s)
    | .revertWaiting _ => s.answer .busy (stateBytes s)
    | .steady => (s.holdRevert s.gen.lastOutcome).settle
    | .probation => (s.holdRevert .manualReverted).settle

/-- REVERT (R100 to R102). -/
def execRevert (s : State) : Host.Outcome State Fault Refusal := commandEvent 0x42 false revertOwner s

/-- R114, R183: the result bytes of a CONFIRM that is taken. -/
def confirmBytes (s : State) : List Byte :=
  bytes2 s.tables.live.generation.toNat ++ bytes2 s.gen.timer.toNat ++ [byte s.gen.resetCount]

/-- R115: an automatic decision has failed the trial. -/
def LastOutcome.failedTrial : LastOutcome → Bool
  | .none => false
  | .confirmed => false
  | .expiredReverted => true
  | .resetsReverted => true
  | .manualReverted => false

/-- R115: the answer of a CONFIRM outside PROBATION. -/
def State.refuseConfirm (s : State) : State :=
  s.answer (if s.gen.lastOutcome.failedTrial then .late else .wrongState)
    [byte s.gen.state.code, byte s.gen.lastOutcome.code]

/-- R114, R115: CONFIRM at the Generation Controller. -/
def confirmOwner (s : State) : State :=
  match s.gen.state with
  | .probation =>
    ({ s with gen := { s.gen with state := .steady, lastOutcome := .confirmed } }).answer .ok (confirmBytes s)
  | .steady => s.refuseConfirm
  | .commitPending _ => s.refuseConfirm
  | .revertWaiting _ => s.refuseConfirm

/-- CONFIRM (R114, R115). -/
def execConfirm (s : State) : Host.Outcome State Fault Refusal := commandEvent 0x43 false confirmOwner s

/-- R104: the revert origin item, 0 outside REVERT_WAITING. -/
def GenState.originCode : GenState → Nat
  | .steady => 0
  | .commitPending _ => 0
  | .probation => 0
  | .revertWaiting o => o.code

/-- R183: the field P8-P10: switch address, tolerance and mode of the pending commit. -/
def pendingField (c : Option PendingCommit) : Nat :=
  (c.map fun c => c.mode.address.toNat + 524288 * c.tolerance.val + 4194304 * c.mode.code).getD 0

/-- R183: the pending probation time, 0 with no commit pending. -/
def pendingProbation (c : Option PendingCommit) : Nat := (c.map fun c => c.probation.toNat).getD 0

/-- R104, R183: the answer of GEN_STATUS. -/
def genStatusBytes (s : State) : List Byte :=
  byte (s.gen.state.code + 4 * s.gen.state.originCode + 16 * s.tables.prior.isSome.toNat
      + 32 * s.gen.lastOutcome.code)
    :: byte s.tables.live.entries.length
    :: bytes2 s.tables.live.generation.toNat
    ++ bytes2 s.tables.priorNumber.toNat
    ++ bytes2 s.gen.counter.toNat
    ++ bytes3 (pendingField s.gen.state.pendingCommit)
    ++ bytes2 (pendingProbation s.gen.state.pendingCommit)
    ++ bytes2 s.gen.timer.toNat
    ++ [byte (s.gen.resetCount + 16 * s.gen.tolerance.val)]

/-- R104: GEN_STATUS at the Generation Controller. -/
def genStatusOwner (s : State) : State := s.answer .ok (genStatusBytes s)

/-- GEN_STATUS (R104); it is answered while the loader runs. -/
def execGenStatus (s : State) : Host.Outcome State Fault Refusal := commandEvent 0x44 true genStatusOwner s

end Sys2Proof.Machine
end

