-- ==== Sys2Proof/Machine/LogCommands.lean ====
section
/-! DEFINITION. The meanings of LOG_POP, LOG_CLEAR, LDR_STATUS and BAD_COMMAND (R131, R133, R175, R143;
layouts R184). -/

namespace Sys2Proof.Machine

/-- R184: the record kind, the fetch kind and the written word of a record. -/
def RecordBody.kindCode : RecordBody → Nat
  | .trap _ => 1
  | .shadow _ => 2

def RecordBody.fetchCode : RecordBody → Nat
  | .trap k => fetchKindCode k
  | .shadow _ => 0

def RecordBody.word : RecordBody → Word
  | .trap _ => 0
  | .shadow w => w

/-- R184: the fields of a popped record in P0 to P11. -/
def LogRecord.layout (r : LogRecord) : List Byte :=
  bytes2 r.sequence.toNat ++ [byte r.body.kindCode, byte r.body.fetchCode] ++ bytes3 r.address.toNat
    ++ [byte r.entryIndex] ++ bytes2 r.generation.toNat ++ bytes2 r.body.word.toNat

/-- The held records replaced; the sequence counter stays (R131, R133). -/
def State.setRecords (s : State) (rs : List LogRecord) : State := { s with log := { s.log with records := rs } }

/-- R131: LOG_POP at the Event Log. -/
def logPopOwner (s : State) : State :=
  match s.log.records with
  | [] => s.answer .logEmpty (List.replicate 13 0 ++ bytes2 s.log.nextSequence.toNat)
  | r :: rest =>
    (s.setRecords rest).answer .ok (r.layout ++ [byte rest.length] ++ bytes2 s.log.nextSequence.toNat)

/-- LOG_POP (R131, R132). -/
def execLogPop (s : State) : Host.Outcome State Fault Refusal := commandEvent 0x50 false logPopOwner s

/-- R133: LOG_CLEAR at the Event Log. -/
def logClearOwner (s : State) : State :=
  (s.setRecords []).answer .ok (byte s.log.records.length :: bytes2 s.log.nextSequence.toNat)

/-- LOG_CLEAR (R133). -/
def execLogClear (s : State) : Host.Outcome State Fault Refusal := commandEvent 0x51 false logClearOwner s

/-- R175, R184: the answer of LDR_STATUS. -/
def ldrStatusBytes (l : Loader) : List Byte :=
  [byte l.state.code, byte l.phase.code, byte (slotCode l.slot), byte l.recordsTaken,
    byte l.outcome.overall.code, byte (slotCode l.outcome.slotUsed),
    byte l.outcome.slotA.result.code, byte l.outcome.slotA.index,
    byte l.outcome.slotB.result.code, byte l.outcome.slotB.index,
    byte ((l.outcome.committed.map (·.toNat)).getD 0), byte l.outcome.probation.toNat]

/-- R175: LDR_STATUS at the Image Loader. -/
def ldrStatusOwner (s : State) : State := s.answer .ok (ldrStatusBytes s.loader)

/-- LDR_STATUS (R175); it is answered while the loader runs. -/
def execLdrStatus (s : State) : Host.Outcome State Fault Refusal := commandEvent 0x60 true ldrStatusOwner s

/-- R143, case 1: a code that names no command, written while the unit is not BUSY. -/
def badCommandEffect (code : Byte) (s : State) : State :=
  if s.cmd.busy.isSome then s.refuse else (s.setCommand code).answer .badCommand []

/-- BAD_COMMAND (R143, R145). A code that names a command is another row's, and no event here. -/
def execBadCommand (code : Byte) (s : State) : Host.Outcome State Fault Refusal :=
  if namesCommand code then .next s else windowEvent s (badCommandEffect code)

end Sys2Proof.Machine
end

