-- ==== Sys2Proof/Machine/WindowWrites.lean ====
section
/-! DEFINITION. The meanings of the window rows outside CMD: PARAMETER_WRITE, STATUS_WRITE, INT_PEND_WRITE,
INT_EN_WRITE, WINDOW_WRITE_IGNORED, and the data port's DATA_LO_WRITE, DATA_HI_WRITE, DATA_LO_READ,
DATA_HI_READ. -/

namespace Sys2Proof.Machine

/-- R142: the byte is stored, or ignored while BUSY. -/
def State.writeParam (s : State) (i : Fin 16) (v : Byte) : State :=
  if s.cmd.busy.isSome then s else { s with cmd := { s.cmd with params := s.cmd.params.set i v } }

/-- PARAMETER_WRITE (R142). -/
def execParameterWrite (i : Fin 16) (v : Byte) (s : State) : Host.Outcome State Fault Refusal :=
  windowEvent s fun s => s.writeParam i v

/-- R147, R179: bit 1 clears REFUSED and bit 2 clears DATA_REJECT. -/
def State.writeStatus (s : State) (v : Byte) : State :=
  { s with
    cmd := { s.cmd with refused := s.cmd.refused && !v.getLsbD 1 }
    mem := { s.mem with dataReject := s.mem.dataReject && !v.getLsbD 2 } }

/-- STATUS_WRITE (R147). -/
def execStatusWrite (v : Byte) (s : State) : Host.Outcome State Fault Refusal :=
  windowEvent s fun s => s.writeStatus v

/-- R137: the causes whose positions the byte has set are cleared. -/
def State.writeIntPend (s : State) (v : Byte) : State :=
  { s with irq := { s.irq with pending := s.irq.pending &&& ~~~(v.setWidth 7) } }

/-- INT_PEND_WRITE (R137). -/
def execIntPendWrite (v : Byte) (s : State) : Host.Outcome State Fault Refusal :=
  windowEvent s fun s => s.writeIntPend v

/-- R136: the enable set becomes the causes whose positions the byte has set. -/
def State.writeIntEn (s : State) (v : Byte) : State :=
  { s with irq := { s.irq with enable := v.setWidth 7 } }

/-- INT_EN_WRITE (R136). -/
def execIntEnWrite (v : Byte) (s : State) : Host.Outcome State Fault Refusal :=
  windowEvent s fun s => s.writeIntEn v

/-- WINDOW_WRITE_IGNORED (R140, R186): the access has no effect of its own. -/
def execWindowWriteIgnored (_offset : BitVec 5) (_v : Byte) (_bothStrobes : Bool) (s : State) :
    Host.Outcome State Fault Refusal :=
  windowEvent s id

/-- R55: the byte is stored in the write latch. -/
def State.writeDataLo (s : State) (v : Byte) : State := { s with mem := { s.mem with writeLatch := v } }

/-- DATA_LO_WRITE (R55). -/
def execDataLoWrite (v : Byte) (s : State) : Host.Outcome State Fault Refusal :=
  windowEvent s fun s => s.writeDataLo v

/-- R56: the pointer, where a DATA_HI write at it is accepted. -/
def writablePointer (s : State) : Option DataPointer :=
  if loaderRunning s then none
  else match s.mem.pointer with
    | none => none
    | some p => match s.segment p.handle with
      | .opened _ => if p.offset < (s.segment p.handle).capacity then some p else none
      | .free => none
      | .sealing _ _ => none
      | .sealed _ _ => none
      | .condemned _ _ => none

/-- The pointer moves to an offset. -/
def State.movePointer (s : State) (p : DataPointer) (offset : Nat) : State :=
  { s with mem := { s.mem with pointer := some { p with offset := offset } } }

/-- R56: a DATA_HI write. The word is written in this step also where its claim waits at the arbiter: no access of another
class writes, and none reads an OPEN segment (notes/assumptions/9.md). -/
def State.writeDataHi (s : State) (v : Byte) : State :=
  match writablePointer s with
  | none => s.rejectData
  | some p =>
    ((s.storeSegmentWord p.handle p.offset (wordOf v s.mem.writeLatch)).movePointer p (p.offset + 1)).claimData

/-- DATA_HI_WRITE (R56). -/
def execDataHiWrite (v : Byte) (s : State) : Host.Outcome State Fault Refusal :=
  windowEvent s fun s => s.writeDataHi v

/-- The byte driven on WD by a data-port read (R140). -/
def State.driveWindow (s : State) (b : Byte) : State := { s with windowData := some b }

/-- The read latch becomes full or empty (R57). -/
def State.setReadLatch (s : State) (b : Option Byte) : State := { s with mem := { s.mem with readLatch := b } }

/-- R57: a DATA_LO read. -/
def State.readDataLo (s : State) : State :=
  match readablePointer s with
  | none => ((s.setReadLatch none).rejectData).driveWindow 0xFF
  | some p =>
    ((s.setReadLatch (some (highByte (s.segmentWord p.handle p.offset)))).driveWindow
      (lowByte (s.segmentWord p.handle p.offset))).claimData

/-- DATA_LO_READ (R57); in chip reset it returns 00h (R140). -/
def execDataLoRead (s : State) : Host.Outcome State Fault Refusal :=
  .next (if s.pins.xrst then s.driveWindow 0 else s.dataEnded.readDataLo)

/-- R57: the pointer moves forward by one unless it stands at the capacity. -/
def State.advancePointer (s : State) : State :=
  match s.mem.pointer with
  | none => s
  | some p => if p.offset < (s.segment p.handle).capacity then s.movePointer p (p.offset + 1) else s

/-- R57: a DATA_HI read. -/
def State.readDataHi (s : State) : State :=
  match heldByte s with
  | none => s.rejectData.driveWindow 0xFF
  | some b => ((s.setReadLatch none).advancePointer).driveWindow b

/-- DATA_HI_READ (R57); in chip reset it returns 00h (R140). -/
def execDataHiRead (s : State) : Host.Outcome State Fault Refusal :=
  .next (if s.pins.xrst then s.driveWindow 0 else s.dataEnded.readDataHi)

end Sys2Proof.Machine
end

