-- ==== Sys2Proof/Machine/LoaderEvents.lean ====
section
/-! DEFINITION. The meanings of the loader rows: ZERO_FILL_END, HEADER_RECEIVED, UNKNOWN_RECORD_TYPE,
SEGMENT_RECORD, SEGMENT_WORD, ENTRY_RECORD, END_RECORD, LOADER_RUN_END (spec/09). -/

namespace Sys2Proof.Machine

/-- R157: every word of patch RAM is 0000h. -/
def State.zeroFill (s : State) : State := { s with mem := { s.mem with ram := [] } }

/-- ZERO_FILL_END (R157, R158). -/
def execZeroFillEnd (s : State) : Host.Outcome State Fault Refusal :=
  outOfReset s fun s =>
    if inPhase s .zeroFill then
      (if s.loader.lden then s.zeroFill.startSlot .a
      else s.zeroFill.endRun { s.loader.outcome with overall := .notEnabled })
    else s

/-- HEADER_RECEIVED (R163): the slot fails under index 0, or its body begins. -/
def execHeaderReceived (b : Vector Byte 16) (s : State) : Host.Outcome State Fault Refusal :=
  outOfReset s fun s =>
    if inPhase s .header then
      match headerFailure b with
      | some r => s.failSlot r 0
      | none => s.setLoader (s.loader.beginBody (parseHeader b))
    else s

/-- UNKNOWN_RECORD_TYPE (R164, checks 1 and 2): the body is exhausted without END, or the type byte names no
record kind. A type byte that names one is another row's. -/
def execUnknownRecordType (typeByte : Byte) (s : State) : Host.Outcome State Fault Refusal :=
  outOfReset s fun s =>
    if atRecord s && (bodyLeft s == 0 || !namesRecord typeByte) then s.failRecord .recordBad else s

/-- The seven bytes of the fixed part of a SEGMENT record (R185). -/
def segmentRecordBytes (length : Word) (crc : Crc32) : List Byte :=
  0x01 :: bytes2 length.toNat ++ bytes4 crc.toNat

/-- R165: a segment is allocated for the record and its words are awaited. -/
def State.beginSegment (s : State) (h : Handle) (run : Run) (length : Nat) (crc : Crc32) : State :=
  (s.setSegment h (.opened run)).setLoader { s.loader with
    segmentMap := s.loader.segmentMap ++ [h]
    current := some { handle := h, length := length, expected := crc, written := 0 } }

/-- R164, check 4, and R165: what a SEGMENT record whose fixed part has been read does. -/
def State.segmentFixed (s : State) (length : Nat) (crc : Crc32) : State :=
  if 2 * length > bodyLeft s then s.failRecord .recordBad
  else if length = 0 ∨ length > Config.patchWords then s.failRecord .recordBad
  else match allocAnswer s ((length + 31) / 32) with
    | .refused _ => s.failRecord .noSpace
    | .taken h run => s.beginSegment h run length crc

/-- SEGMENT_RECORD (R164, R165). -/
def execSegmentRecord (length : Word) (crc : Crc32) (s : State) : Host.Outcome State Fault Refusal :=
  outOfReset s fun s =>
    s.record (segmentRecordBytes length crc) fun s => s.segmentFixed length.toNat crc

/-- R166: a word is written to the record's segment at the next offset. -/
def State.loadWord (s : State) (p : SegmentProgress) (w : Word) : State :=
  let s := s.readBody [lowByte w, highByte w]
  let s := (s.dataEnded.storeSegmentWord p.handle p.written w).claimData
  s.setLoader { s.loader with current := some { p with written := p.written + 1 } }

/-- R166: after the last word the loader makes its seal request and waits. -/
def State.loaderSeal (s : State) (p : SegmentProgress) (run : Run) : State :=
  let s := s.startSeal p.handle run p.length p.expected true
  s.setLoader { s.loader with phase := .sealWait }

/-- SEGMENT_WORD (R166). -/
def execSegmentWord (w : Word) (s : State) : Host.Outcome State Fault Refusal :=
  outOfReset s fun s =>
    match s.loader.current with
    | none => s
    | some p =>
      if inPhase s .records then
        match s.segment p.handle with
        | .opened run =>
          if p.written + 1 < p.length then s.loadWord p w else (s.loadWord p w).loaderSeal p run
        | .free => s
        | .sealing _ _ => s
        | .sealed _ _ => s
        | .condemned _ _ => s
      else s

/-- The thirteen bytes of an ENTRY record (R185). -/
def entryRecordBytes (base : BitVec 24) (length : Word) (kind applies ordinal : Byte) (offset value : Word) :
    List Byte :=
  0x02 :: bytes3 base.toNat ++ bytes2 length.toNat ++ [kind, applies, ordinal] ++ bytes2 offset.toNat
    ++ bytes2 value.toNat

/-- R167: the slot result of a refused insert. A refusal the manual shows cannot occur here is RECORD_BAD
(notes/assumptions/20.md). -/
def insertFailure : ResultCode → SlotResult
  | .range => .overlapOrRange
  | .overlap => .overlapOrRange
  | .tableFull => .noSpace
  | _ => .recordBad

/-- R167: the internal insert request and its outcome. -/
def State.loaderInsert (s : State) (r : InsertRequest) : State :=
  match insertAnswer s r with
  | .refused c _ => s.failRecord (insertFailure c)
  | .taken e i => (s.placeEntry e i).completeRecord

/-- R167: a REPLACE entry names its segment by ordinal in the segment map. -/
def State.entryFixed (s : State) (r : InsertRequest) (ordinal : Nat) : State :=
  if r.kind = 1 then
    match s.loader.segmentMap[ordinal]? with
    | none => s.failRecord .recordBad
    | some h => s.loaderInsert { r with segment := handleNumber h }
  else s.loaderInsert r

/-- ENTRY_RECORD (R164, R167). -/
def execEntryRecord (base : BitVec 24) (length : Word) (kind applies ordinal : Byte) (offset value : Word)
    (s : State) : Host.Outcome State Fault Refusal :=
  outOfReset s fun s =>
    s.record (entryRecordBytes base length kind applies ordinal offset value) fun s =>
      s.entryFixed
        { base := base.toNat, length := length.toNat, kind := kind, applies := applies, segment := 0,
          offset := offset.toNat, value := value }
        ordinal.toNat

/-- R168: the first check of END that fails. -/
def endFailure (s : State) (h : ImageHeader) : Option SlotResult :=
  if s.loader.bodyRead < h.bodyLength.toNat then some .recordBad
  else if s.loader.recordsTaken + 1 ≠ h.recordCount.toNat then some .countMismatch
  else if crc32Final s.loader.remainder ≠ h.bodyCrc then some .bodyCrc
  else none

/-- R168, R169, R174: the slot succeeds: its report is written, the transaction ends, the map is emptied and
the loader waits for its switch. -/
def Loader.succeed (l : Loader) (h : ImageHeader) : Loader :=
  { l.report { result := .ok, index := l.recordsTaken } with
    header := none
    segmentMap := []
    recordsTaken := l.recordsTaken + 1
    phase := .switchWait
    asksTrial := h.commit.probation != 0
    transaction := none }

/-- R169: the slot succeeds and the loader commits; with the port idle the switch follows at once. -/
def State.succeedSlot (s : State) (h : ImageHeader) : State :=
  ((s.setLoader (s.loader.succeed h)).recordCommit h.commit).settle

/-- R168: what END does once its type byte has been read. -/
def State.endFixed (s : State) : State :=
  match s.loader.header with
  | none => s.failRecord .recordBad
  | some h => match endFailure s h with
    | some r => s.failRecord r
    | none => s.succeedSlot h

/-- END_RECORD (R164, R168, R169). -/
def execEndRecord (s : State) : Host.Outcome State Fault Refusal :=
  outOfReset s fun s => s.record [0x03] State.endFixed

/-- R174: the outcome record of a run that loaded a slot. -/
def Loader.loaded (l : Loader) : OutcomeRecord :=
  { l.outcome with overall := .loaded, slotUsed := l.slot, committed := some 1, probation := l.asksTrial }

/-- The loader waits in SWITCH_WAIT and its commit has been switched (R169). -/
def loaderSwitched (s : State) : Bool := inPhase s .switchWait && s.gen.state.pendingCommit.isNone

/-- LOADER_RUN_END (R169, R173): the loader's end event, once its switch has been taken. -/
def execLoaderRunEnd (s : State) : Host.Outcome State Fault Refusal :=
  outOfReset s fun s => if loaderSwitched s then s.endRun s.loader.loaded else s

end Sys2Proof.Machine
end

