-- ==== Sys2Proof/Machine/Dispatch.lean ====
section
/-! DEFINITION. One arm for each command: the row's meaning. -/

namespace Sys2Proof.Machine

def exec (i : Instr) (s : State) : Host.Outcome State Fault Refusal :=
  match i with
  | .powerOn lden trst freq => Sys2Proof.Machine.execPowerOn lden trst freq s
  | .xrstAssert => Sys2Proof.Machine.execXrstAssert s
  | .xrstRelease lden => Sys2Proof.Machine.execXrstRelease lden s
  | .trstAssert => Sys2Proof.Machine.execTrstAssert s
  | .trstRelease => Sys2Proof.Machine.execTrstRelease s
  | .resetExcess => Sys2Proof.Machine.execResetExcess s
  | .freqPresent fa flen fkind fwr fd => Sys2Proof.Machine.execFreqPresent fa flen fkind fwr fd s
  | .fetchAccept => Sys2Proof.Machine.execFetchAccept s
  | .romReadDone rd => Sys2Proof.Machine.execRomReadDone rd s
  | .romWriteDone fd => Sys2Proof.Machine.execRomWriteDone fd s
  | .fetchRamReadDone => Sys2Proof.Machine.execFetchRamReadDone s
  | .crcWordRead => Sys2Proof.Machine.execCrcWordRead s
  | .sealComplete => Sys2Proof.Machine.execSealComplete s
  | .msTick => Sys2Proof.Machine.execMsTick s
  | .probationExpiry => Sys2Proof.Machine.execProbationExpiry s
  | .switch => Sys2Proof.Machine.execSwitch s
  | .revertTaken => Sys2Proof.Machine.execRevertTaken s
  | .segAlloc => Sys2Proof.Machine.execSegAlloc s
  | .segSelect => Sys2Proof.Machine.execSegSelect s
  | .segSeal => Sys2Proof.Machine.execSegSeal s
  | .segUnseal => Sys2Proof.Machine.execSegUnseal s
  | .segFree => Sys2Proof.Machine.execSegFree s
  | .segInfo => Sys2Proof.Machine.execSegInfo s
  | .stgInsert => Sys2Proof.Machine.execStgInsert s
  | .stgRemove => Sys2Proof.Machine.execStgRemove s
  | .stgClear => Sys2Proof.Machine.execStgClear s
  | .stgCopyLive => Sys2Proof.Machine.execStgCopyLive s
  | .tblRead => Sys2Proof.Machine.execTblRead s
  | .cntClear => Sys2Proof.Machine.execCntClear s
  | .commit => Sys2Proof.Machine.execCommit s
  | .commitAbort => Sys2Proof.Machine.execCommitAbort s
  | .revert => Sys2Proof.Machine.execRevert s
  | .confirm => Sys2Proof.Machine.execConfirm s
  | .genStatus => Sys2Proof.Machine.execGenStatus s
  | .logPop => Sys2Proof.Machine.execLogPop s
  | .logClear => Sys2Proof.Machine.execLogClear s
  | .ldrStatus => Sys2Proof.Machine.execLdrStatus s
  | .badCommand code => Sys2Proof.Machine.execBadCommand code s
  | .parameterWrite index value => Sys2Proof.Machine.execParameterWrite index value s
  | .statusWrite value => Sys2Proof.Machine.execStatusWrite value s
  | .intPendWrite value => Sys2Proof.Machine.execIntPendWrite value s
  | .intEnWrite value => Sys2Proof.Machine.execIntEnWrite value s
  | .dataLoWrite value => Sys2Proof.Machine.execDataLoWrite value s
  | .dataHiWrite value => Sys2Proof.Machine.execDataHiWrite value s
  | .dataLoRead => Sys2Proof.Machine.execDataLoRead s
  | .dataHiRead => Sys2Proof.Machine.execDataHiRead s
  | .windowWriteIgnored offset value bothStrobes => Sys2Proof.Machine.execWindowWriteIgnored offset value bothStrobes s
  | .zeroFillEnd => Sys2Proof.Machine.execZeroFillEnd s
  | .headerReceived header => Sys2Proof.Machine.execHeaderReceived header s
  | .unknownRecordType typeByte => Sys2Proof.Machine.execUnknownRecordType typeByte s
  | .segmentRecord length crc => Sys2Proof.Machine.execSegmentRecord length crc s
  | .segmentWord word => Sys2Proof.Machine.execSegmentWord word s
  | .entryRecord base length kind applies ordinal offset value => Sys2Proof.Machine.execEntryRecord base length kind applies ordinal offset value s
  | .endRecord => Sys2Proof.Machine.execEndRecord s
  | .loaderRunEnd => Sys2Proof.Machine.execLoaderRunEnd s
  | .freqRelease => Sys2Proof.Machine.execFreqRelease s

end Sys2Proof.Machine
end

