-- ==== Sys2Proof/Machine/Step.lean ====
section
/-! DEFINITION. One step of the block: the command at the front of the queue, or what an empty queue lets happen. -/

namespace Sys2Proof.Machine

/-- The command is put at the front of the queue; nothing changes where the word spells none. -/
def State.withFetchWord (s : State) (nbits w : Nat) : State :=
  match decodeTableWord nbits w with
  | none => s
  | some c => { s with pending := c :: s.pending }

/-- The command at the front of the queue is taken with the queue's rest; on an empty queue what
waits at fetch idle is taken, or one CLK period passes (notes/assumptions/1.md and 5.md). -/
def step (s : State) : Host.Outcome State Fault Refusal :=
  match s.pending with
  | [] => emptyQueue s
  | c :: rest => exec c { s with pending := rest }

end Sys2Proof.Machine
end

