-- ==== Sys2Proof/Safety.lean ====
section
/-! DEFINITION. What the manual says always holds of the part's state, as one predicate for each block, and
their conjunction `Inv`. Each is decidable on a concrete state. -/

namespace Sys2Proof.Machine

/-! ### Tables (R1, R8, R9) -/

/-- R1: the offset of a REPLACE entry lies from 0 to 16383. -/
def EntryBody.offsetInRange : EntryBody → Bool
  | .replace _ o => o ≤ Config.maxOffset
  | .fill _ => true
  | .trap _ => true
  | .count => true

/-- R1: every field of the entry is in its range, and the range does not pass the top. -/
abbrev Entry.InRange (e : Entry) : Prop :=
  1 ≤ e.length ∧ e.length ≤ Config.maxLength ∧ e.top ≤ Config.fetchTop ∧ e.hits ≤ Config.hitsMax
    ∧ e.body.offsetInRange = true

/-- R9: each entry ends at or before every later one begins. -/
abbrev Ordered (es : List Entry) : Prop := es.Pairwise fun e f => e.top ≤ f.base.toNat

/-- R9: at most 32 entries in range, in ascending order and disjoint. -/
abbrev TableForm (es : List Entry) : Prop :=
  es.length ≤ Config.tableEntries ∧ (∀ e ∈ es, e.InRange) ∧ Ordered es

/-- R8, R9: all three tables have the form, and STAGED's counts are 0. -/
abbrev TablesForm (t : TableStore) : Prop :=
  TableForm t.staged ∧ TableForm t.live.entries ∧ TableForm t.priorEntries ∧ ∀ e ∈ t.staged, e.hits = 0

/-- R12: PRIOR's number, where PRIOR is present, differs from LIVE's. -/
abbrev NumbersDiffer (t : TableStore) : Prop := ∀ p ∈ t.prior, p.generation ≠ t.live.generation

/-! ### Segments (R2, R43, R44, R51, R53) -/

/-- The entries of the three tables together. -/
def TableStore.allEntries (t : TableStore) : List Entry := t.staged ++ t.live.entries ++ t.priorEntries

/-- The number of REPLACE entries of a list that name a handle. -/
def namedBy (es : List Entry) (h : Handle) : Nat := es.countP fun e => e.segment? == some h

/-- R51: each segment's references are the REPLACE entries of the three tables that name it. -/
abbrev ReferencesCounted (s : State) : Prop :=
  ∀ h : Handle, (s.segment h).references = namedBy s.tables.allEntries h

/-- The segment is SEALED or CONDEMNED. -/
def Segment.isFixed : Segment → Bool
  | .free => false
  | .opened _ => false
  | .sealing _ _ => false
  | .sealed _ _ => true
  | .condemned _ _ => true

/-- R2: a REPLACE entry names a SEALED or CONDEMNED segment and stays within its sealed length. -/
def entryBacked (s : State) (e : Entry) : Bool :=
  match e.body with
  | .replace h o => (s.segment h).isFixed && decide (o + e.length ≤ (s.segment h).sealedLength)
  | .fill _ => true
  | .trap _ => true
  | .count => true

/-- R2, for every entry of the three tables. -/
abbrev EntriesBacked (s : State) : Prop := ∀ e ∈ s.tables.allEntries, entryBacked s e = true

/-- R53: a CONDEMNED segment has references above zero. -/
def Segment.condemnedNamed : Segment → Bool
  | .free => true
  | .opened _ => true
  | .sealing _ _ => true
  | .sealed _ _ => true
  | .condemned _ d => 0 < d.references

/-- R53, for every handle. -/
abbrev CondemnedNamed (s : State) : Prop := ∀ h : Handle, (s.segment h).condemnedNamed = true

/-- R44: a run has 1 to 512 granules and ends at or below granule 511. -/
def Run.inRange (r : Run) : Bool := 1 ≤ r.count && r.first + r.count ≤ Config.granules

/-- R44: the sealed length, where it is present, lies from 1 to the capacity. -/
def Segment.lengthInRange : Segment → Bool
  | .free => true
  | .opened _ => true
  | .sealing r n => 1 ≤ n && n ≤ r.count * Config.granuleWords
  | .sealed r d => 1 ≤ d.length && d.length ≤ r.count * Config.granuleWords
  | .condemned r d => 1 ≤ d.length && d.length ≤ r.count * Config.granuleWords

/-- R43: the two runs share no granule. -/
def Run.apart (r q : Run) : Bool := r.first + r.count ≤ q.first || q.first + q.count ≤ r.first

/-- R43: the runs the two segments own, if both own one, share no granule. -/
def Segment.apart (a b : Segment) : Bool :=
  match a.run, b.run with
  | some r, some q => r.apart q
  | _, _ => true

/-- R43, R44: every run is in range, and the runs of different handles are disjoint. -/
abbrev RunsForm (s : State) : Prop :=
  (∀ h : Handle, (s.segment h).run.all Run.inRange = true)
    ∧ ∀ h k : Handle, h ≠ k → (s.segment h).apart (s.segment k) = true

/-- R44: every sealed length that is present is in range. -/
abbrev LengthsForm (s : State) : Prop := ∀ h : Handle, (s.segment h).lengthInRange = true

/-- R54: the pointer, where set, stands on a non-FREE segment at an offset up to its capacity. -/
abbrev PointerForm (s : State) : Prop :=
  ∀ p ∈ s.mem.pointer, (s.segment p.handle).isFree = false ∧ p.offset ≤ (s.segment p.handle).capacity

/-! ### Generation Controller (R13, R94, R109) -/

/-- The state is COMMIT_PENDING. -/
def GenState.isPending : GenState → Bool
  | .steady => false
  | .commitPending _ => true
  | .probation => false
  | .revertWaiting _ => false

/-- A movement back to PRIOR may be ordered: the state is PROBATION or REVERT_WAITING. -/
def GenState.needsPrior : GenState → Bool
  | .steady => false
  | .commitPending _ => false
  | .probation => true
  | .revertWaiting _ => true

/-- R13: the lock is set exactly in COMMIT_PENDING. -/
abbrev LockForm (s : State) : Prop := s.tables.stagedLock = s.gen.state.isPending

/-- R94: PRIOR is present in PROBATION, and it stays so while a revert waits (R11). -/
abbrev PriorForm (s : State) : Prop := s.gen.state.needsPrior = true → s.tables.prior.isSome = true

/-- R109: in PROBATION the timer is above 0, the count within the tolerance and the outcome NONE; at any time the
count is at most the tolerance plus one. -/
abbrev TrialForm (s : State) : Prop :=
  s.gen.resetCount ≤ s.gen.tolerance.val + 1
    ∧ (s.gen.state = .probation →
        s.gen.timer ≠ 0 ∧ s.gen.resetCount ≤ s.gen.tolerance.val ∧ s.gen.lastOutcome = .none)

/-! ### Event Log (R129, R130) -/

/-- How far a sequence number lies from the oldest one held, going round the circle of 65,536 values. -/
def seqDistance (oldest n : BitVec 16) : Nat := (n - oldest).toNat

/-- How far the counter lies from the oldest number held, from 1 to 65,536. -/
def counterDistance (oldest next : BitVec 16) : Nat :=
  if next = oldest then 65536 else seqDistance oldest next

/-- R130: the held numbers step forward round the circle without lapping, below the counter; and the counter keeps
room for as many numbers as the log has free places. -/
def EventLog.form (l : EventLog) : Bool :=
  match l.records with
  | [] => true
  | r :: rest =>
    decide ((r :: rest).Pairwise fun a b =>
        seqDistance r.sequence a.sequence < seqDistance r.sequence b.sequence)
      && (r :: rest).all (fun a => seqDistance r.sequence a.sequence < counterDistance r.sequence l.nextSequence)
      && decide ((r :: rest).length ≤ Config.logRecords)
      && decide (counterDistance r.sequence l.nextSequence + Config.logRecords
          ≤ 65536 + (r :: rest).length)

/-! ### Fetch port (R21, R23 to R28, R108) -/

/-- R108: the request in progress latched the table that is LIVE, and 1 to FLEN words of it are left. -/
abbrev LatchForm (s : State) : Prop :=
  ∀ r ∈ s.fetch.request,
    r.latch = s.tables.live.generation ∧ 1 ≤ r.left ∧ r.left ≤ fetchWords r.length

/-- The fetch read claims at the arbiter: the one that waits and the one being served. -/
def Arbiter.fetchClaims (a : Arbiter) : List FetchClaim :=
  a.fetchWaits.toList ++
    match a.serving with
    | some (.fetchRead c) => [c]
    | some .discarded => []
    | some .dataAccess => []
    | some .crcRead => []
    | none => []

/-- What a read request waits for, by the resolution of its current word: one ROM read cycle or one fetch read claim. -/
def Resolution.awaited (x : Resolution) : RomCycle × List FetchClaim :=
  match x with
  | .passthrough => (.read, [])
  | .countOnly _ => (.read, [])
  | .replace h o _ => (.none, [{ handle := h, offset := o }])
  | .fill _ _ => (.none, [])
  | .trap _ _ => (.none, [])

/-- R25, R26, R28, R35: a request in progress waits for exactly what its current word needs, with RA at the word's address
in a ROM cycle; with no request there is no ROM cycle and no fetch read claim. Only the first word of a read may be
ready at once and not yet delivered (notes/assumptions/1.md). -/
def fetchForm (s : State) : Bool :=
  match s.fetch.request with
  | none => s.fetch.romCycle == .none && s.mem.arbiter.fetchClaims == []
  | some r =>
    (s.fetch.romCycle == .none || s.fetch.romAddress == r.address)
      && match r.dir with
        | .read =>
          ((s.resolveWord r).waits || r.left == fetchWords r.length)
            && (s.fetch.romCycle, s.mem.arbiter.fetchClaims) == (s.resolveWord r).awaited
        | .write => rweAsserted s && s.mem.arbiter.fetchClaims == []

/-- R38, R90, R99: while TRST# is asserted no request is in progress, and no movement waits for fetch idle. -/
abbrev TargetForm (s : State) : Prop :=
  s.pins.trst = true → s.fetch.request = none ∧ movementWaits s = false

/-! ### Command unit, CRC engine and loader (R61, R62, R66, R146, R148, R154) -/

/-- A seal is in progress, for the loader or for the command unit. -/
def sealRuns (s : State) (forLoader : Bool) : Bool := s.mem.crcJob.any fun j => j.forLoader == forLoader

/-- R146: the unit is held by SEG_SEAL exactly while a seal taken from it is in progress, and by REVERT exactly while a
manual revert waits. -/
abbrev HeldForm (s : State) : Prop :=
  (s.cmd.busy = some .segSeal ↔ sealRuns s false = true)
    ∧ (s.cmd.busy = some .revert ↔ s.gen.state = .revertWaiting .manual)

/-- R148: the unit holds no command while the loader runs. -/
abbrev UnheldForm (s : State) : Prop := loaderRunning s = true → s.cmd.busy = none

/-- R66: a seal is in progress for the loader exactly in phase SEAL_WAIT. -/
abbrev LoaderSealForm (s : State) : Prop :=
  inPhase s .sealWait = sealRuns s true

/-- R61, R62: the job in progress works on a SEALING segment of its own length, at an offset within it; a CRC read is
claimed exactly while there is a job. -/
def jobForm (s : State) : Bool :=
  match s.mem.crcJob with
  | none => !s.mem.arbiter.crcWaits && s.mem.arbiter.serving != some .crcRead
  | some j =>
    decide (j.offset < j.length)
      && (s.mem.arbiter.crcWaits != (s.mem.arbiter.serving == some .crcRead))
      && match s.segment j.handle with
        | .free => false
        | .opened _ => false
        | .sealing _ n => decide (n = j.length)
        | .sealed _ _ => false
        | .condemned _ _ => false

/-- R65: the RAM port is not left free with a claim waiting, and the data-port class has one access outstanding at most. -/
def arbiterForm (a : Arbiter) : Bool :=
  (a.serving.isSome || (!a.fetchWaits.isSome && !a.dataWaits && !a.crcWaits))
    && !(a.dataWaits && a.serving == some .dataAccess)

/-- The loader reads the flash: header, body, or a wait for a seal. -/
def LoaderPhase.reads : LoaderPhase → Bool
  | .none => false
  | .zeroFill => false
  | .header => true
  | .records => true
  | .sealWait => true
  | .switchWait => false

/-- The loader has a header in hand: in the body of a slot. -/
def LoaderPhase.inBody : LoaderPhase → Bool
  | .none => false
  | .zeroFill => false
  | .header => false
  | .records => true
  | .sealWait => true
  | .switchWait => false

/-- R154, R160: the phase is NONE exactly outside RUNNING; a slot is read, in a transaction at its address, exactly in
the reading phases; the header is held exactly in the body, within which no more bytes are read than it gives. -/
abbrev LoaderForm (s : State) : Prop :=
  (s.loader.phase = .none ↔ s.loader.state ≠ .running)
    ∧ s.loader.transaction = (if s.loader.phase.reads then s.loader.slot.map slotAddress else none)
    ∧ (s.loader.phase.reads = true → s.loader.slot.isSome = true)
    ∧ s.loader.header.isSome = s.loader.phase.inBody
    ∧ (s.loader.header.isSome = true → s.loader.bodyRead ≤ bodyLength s)

/-- R166: the SEGMENT record in progress writes the OPEN segment it has allocated, within its capacity; it waits for
words in phase RECORDS and for its seal in SEAL_WAIT. -/
def progressForm (s : State) : Bool :=
  match s.loader.current with
  | none => s.loader.phase != .sealWait
  | some p =>
    s.loader.phase.inBody && s.loader.segmentMap.contains p.handle
      && (match s.segment p.handle with
        | .free => false
        | .opened r => s.loader.phase == .records && decide (p.written < p.length)
            && decide (p.length ≤ r.count * Config.granuleWords)
            && decide (2 * (p.length - p.written) ≤ bodyLeft s)
        | .sealing _ n => s.loader.phase == .sealWait && decide (p.written = p.length) && decide (n = p.length)
        | .sealed _ _ => false
        | .condemned _ _ => false)

/-- R154, R169, R171: the segment map is empty outside a body; its segments are distinct, and none is FREE or CONDEMNED. -/
abbrev MapForm (s : State) : Prop :=
  (s.loader.segmentMap ≠ [] → s.loader.phase.inBody = true)
    ∧ s.loader.segmentMap.Nodup
    ∧ ∀ h ∈ s.loader.segmentMap, (s.segment h).stateCode ≠ 0 ∧ (s.segment h).stateCode ≠ 4

/-- The loader has not yet committed in this run. -/
def loaderBuilding (s : State) : Bool := loaderRunning s && s.loader.phase != .switchWait

/-- R41, R106: until the loader's commit LIVE is the empty table of generation 0, PRIOR is absent, the state is STEADY
and the counter is 0. -/
abbrev BuildingForm (s : State) : Prop :=
  loaderBuilding s = true →
    s.tables.live = { entries := [], generation := 0 } ∧ s.tables.prior = none ∧ s.gen = genReset

/-- R12, R87: the table of generation 0 is empty. -/
abbrev ZeroEmpty (t : TableStore) : Prop :=
  (t.live.generation = 0 → t.live.entries = []) ∧ ∀ p ∈ t.prior, p.generation = 0 → p.entries = []

/-- R40, R154: in chip reset no request, no seal and no run is in progress. -/
abbrev ChipResetForm (s : State) : Prop :=
  s.pins.xrst = true →
    s.fetch = fetchReset ∧ s.tables = tablesReset ∧ s.gen = genReset ∧ s.log = logReset ∧ s.irq = irqReset
      ∧ s.cmd = cmdReset ∧ s.loader = loaderReset ∧ s.divider = 0
      ∧ s.mem = { memReset with ram := s.mem.ram }

/-- R157: while the zero-fill runs every descriptor is FREE. -/
abbrev FillForm (s : State) : Prop := inPhase s .zeroFill = true → ∀ h : Handle, s.segment h = .free

/-- R20, R21: a presentation stands only while FREQ# is asserted. -/
abbrev PresenceForm (s : State) : Prop := s.fetch.standing.isSome = true → s.pins.freq = true

/-! ### What claims and movements leave, said at once (R15, R53, R93, R102) -/

/-- R53: a descriptor after `k` decrement claims, in whatever order they come. -/
def Segment.lowered (g : Segment) (k : Nat) : Segment :=
  match g with
  | .free => .free
  | .opened r => .opened r
  | .sealing r n => .sealing r n
  | .sealed r d => .sealed r { d with references := d.references - k }
  | .condemned r d =>
    if k = 0 then .condemned r d
    else if d.references ≤ k then .free
    else .condemned r { d with references := d.references - k }

/-- R52: a descriptor after `k` increment claims. -/
def Segment.raised (g : Segment) (k : Nat) : Segment :=
  match g with
  | .free => .free
  | .opened r => .opened r
  | .sealing r n => .sealing r n
  | .sealed r d => .sealed r { d with references := d.references + k }
  | .condemned r d => .condemned r { d with references := d.references + k }

/-- R53: the descriptors after one decrement claim for each REPLACE entry of a list. -/
def loweredBy (s : State) (es : List Entry) : Vector Segment 48 :=
  Vector.ofFn fun h => (s.segment h).lowered (namedBy es h)

/-- R53, R54: the decrement claims of the list free the segment under the data pointer. -/
def freesPointed (s : State) (es : List Entry) : Bool :=
  match s.mem.pointer with
  | none => false
  | some p =>
    !(s.segment p.handle).isFree && ((s.segment p.handle).lowered (namedBy es p.handle)).isFree

/-- R53: patch memory after one decrement claim for each REPLACE entry of a list. -/
def memoryLowered (s : State) (es : List Entry) : PatchMemory :=
  { s.mem with
    segments := loweredBy s es
    pointer := if freesPointed s es then none else s.mem.pointer
    readLatch := if freesPointed s es then none else s.mem.readLatch }

/-- R93: the state a switch of the pending commit leaves, with the new generation's number given. -/
def switchedState (s : State) (c : PendingCommit) (n : Generation) : State :=
  { s with
    tables :=
      { staged := [], stagedLock := false
        live := { entries := s.tables.staged.map fun e => { e with hits := 0 }, generation := n }
        prior := some s.tables.live }
    gen :=
      { state := if c.probation = 0 then .steady else .probation
        counter := n, timer := c.probation, resetCount := 0, tolerance := c.tolerance, lastOutcome := .none }
    mem := memoryLowered s s.tables.priorEntries
    irq := { s.irq with pending := s.irq.pending ||| 0b0000100 } }

/-- R12: the number a switch gives, as a number: the value after the counter, and the value after that one where it is
the outgoing LIVE's. -/
def numberGiven (counter live : Nat) : Nat :=
  let after := fun n : Nat => if n = 65535 then 1 else n + 1
  if after counter = live then after (after counter) else after counter

/-- R102: the state the taking of a waiting revert leaves, where PRIOR is `p`: the tables are exchanged, the state is
STEADY, and a REVERT command is answered or REVERTED is raised. -/
def revertedState (s : State) (p : NumberedTable) (o : RevertOrigin) : State :=
  let moved : State :=
    { s with
      tables := { s.tables with live := p, prior := some s.tables.live }
      gen := { s.gen with state := .steady } }
  match o with
  | .manual =>
    { moved with cmd := { s.cmd with
        result := .ok, busy := none
        params := resultBytes
          (bytes2 p.generation.toNat ++ bytes2 s.tables.live.generation.toNat) } }
  | .expiry => { moved with irq := { s.irq with pending := s.irq.pending ||| 0b0001000 } }
  | .resets => { moved with irq := { s.irq with pending := s.irq.pending ||| 0b0001000 } }

/-- R38: what an assertion of TRST# does at the fetch port and at the patch RAM arbiter. -/
def requestEnded (s : State) : State :=
  { s with
    pins := { s.pins with trst := true }
    fetch := { s.fetch with request := none, romCycle := .none }
    mem := { s.mem with arbiter := { s.mem.arbiter with
      fetchWaits := none
      serving := match s.mem.arbiter.serving with
        | some (.fetchRead _) => some .discarded
        | some .discarded => some .discarded
        | some .dataAccess => some .dataAccess
        | some .crcRead => some .crcRead
        | none => none } } }

/-! ### The patch RAM arbiter (R65) -/

/-- R65: the arbiter once its access has ended: a waiting fetch read goes first, then a data-port access, then a CRC read. -/
def Arbiter.passed (a : Arbiter) : Arbiter :=
  match a.fetchWaits, a.dataWaits, a.crcWaits with
  | some c, d, w => { serving := some (.fetchRead c), fetchWaits := none, dataWaits := d, crcWaits := w }
  | none, true, w => { serving := some .dataAccess, fetchWaits := none, dataWaits := false, crcWaits := w }
  | none, false, true => { serving := some .crcRead, fetchWaits := none, dataWaits := false, crcWaits := false }
  | none, false, false => { serving := none, fetchWaits := none, dataWaits := false, crcWaits := false }

/-- R65: the arbiter once a data-port access that had the port has ended. -/
def Arbiter.idled (a : Arbiter) : Arbiter := if a.serving = some .dataAccess then a.passed else a

/-- R65: the arbiter with a CRC read claim presented. -/
def Arbiter.asked (a : Arbiter) : Arbiter :=
  if a.serving.isSome then { a with crcWaits := true } else { a with crcWaits := true }.passed

/-- R65: the arbiter with a data-port claim presented. -/
def Arbiter.dataAsked (a : Arbiter) : Arbiter :=
  if a.serving.isSome then { a with dataWaits := true } else { a with dataWaits := true }.passed

/-- R28, R65: the arbiter with a fetch read claim presented: it waits for the access in progress, and is served at once where
there is none. -/
def Arbiter.fetchAsked (a : Arbiter) (c : FetchClaim) : Arbiter :=
  if a.serving.isSome then { a with fetchWaits := some c }
  else { a with serving := some (.fetchRead c), fetchWaits := none }

/-- R65: what a window access finds: the data-port access of an earlier one has ended (notes/assumptions/9.md). -/
def windowBegun (s : State) : State := { s with mem := { s.mem with arbiter := s.mem.arbiter.idled } }

/-! ### When an event is taken (R140, R143, R24) -/

/-- R143: a command written now is handed to its owner: no chip reset, no command held, no loader run. -/
abbrev Ready (s : State) : Prop := s.pins.xrst = false ∧ s.cmd.busy = none ∧ s.loader.state ≠ .running

/-- R143: a command written now is answered, by its owner if it is one of the three. -/
abbrev Unheld (s : State) : Prop := s.pins.xrst = false ∧ s.cmd.busy = none

/-- The unit has answered a command: the register holds its code, and the answer stands in RESULT and in all sixteen
parameter bytes (R143, R144). The write to CMD has found no data-port access outstanding (R65). -/
def State.answered (s : State) (code : Byte) (r : ResultCode) (bs : List Byte) : State :=
  { windowBegun s with cmd := { s.cmd with command := code, result := r, params := resultBytes bs } }

/-- A presentation made now would be accepted at once: the resets are released, no request is in progress and no
movement waits (R21). -/
abbrev PortOpen (s : State) : Prop :=
  s.pins.xrst = false ∧ s.pins.trst = false ∧ s.pins.freq = false ∧ s.fetch.request = none
    ∧ movementWaits s = false

/-- R91: no AT_ADDRESS switch is taken at the acceptance of the presentation. -/
abbrev NoSwitchAt (s : State) (p : Presentation) : Prop :=
  ∀ c, s.gen.state = .commitPending c → ∀ a, c.mode = .atAddress a → p.meets a = false

/-- The request in progress as an acceptance of the presentation fills it (R21 to R23). -/
def acceptedRequest (s : State) (p : Presentation) : Request :=
  { first := alignAddress p.address p.length, length := p.length, kind := p.kind, dir := p.dir,
    latch := s.tables.live.generation, left := fetchWords p.length }

/-- The state in which an acceptance of the presentation begins to serve (R21). -/
def accepted (s : State) (p : Presentation) : State :=
  { s with fetch := { s.fetch with standing := none, request := some (acceptedRequest s p), beats := [] } }

/-- R25, R29: the words of the request in progress served as far as they are ready; a request has at most eight. -/
def State.served (s : State) : State := serve 8 s

/-- R29: a first word that is ready at once is not left undelivered (notes/assumptions/1.md). -/
abbrev NoReadyWord (s : State) : Prop :=
  ∀ r, s.fetch.request = some r → r.dir = .read → (resolve s.tables.live.entries r.address r.kind).waits = true

/-- R21, R25, R91: what an acceptance leaves that has taken the switch it meets, where `s` is the switched state: the request
latches the new LIVE and the access its first word needs is started. -/
def State.switchBegun (s : State) (p : Presentation) : State := (accepted s p).startWord

/-- R30, R31, R36: the fetch port once FRDY has marked the word being worked on: delivered with the word on FD, or written.
The request has one word less, and ends at its last. -/
def wordMarked (f : FetchPort) (r : Request) (d : Option Word) : FetchPort :=
  { f with
    beats := f.beats ++ [{ address := r.address, data := d }]
    request := if r.left = 1 then none else some { r with left := r.left - 1 } }

/-- R21, R25, R35: what an acceptance that takes no switch leaves: a read served as far as its words are ready, a write in
its first ROM write cycle. -/
def State.begun (s : State) (p : Presentation) : State :=
  match p.dir with
  | .read => (accepted s p).served
  | .write =>
    { s with fetch :=
      { standing := none, request := some (acceptedRequest s p),
        romAddress := alignAddress p.address p.length, romCycle := .write p.data, beats := [] } }

/-- R8: every count of LIVE is in its range. -/
abbrev CountsInRange (t : TableStore) : Prop := ∀ e ∈ t.live.entries, e.hits ≤ 16777215

/-- R8, R32: `n` hits more in the LIVE entry at an index; a count stays at 16,777,215. -/
def hitsAt (t : TableStore) (i n : Nat) : TableStore :=
  { t with live := { t.live with
      entries := t.live.entries.modify i fun e => { e with hits := min (e.hits + n) 16777215 } } }

/-- R42: the word of patch RAM at an offset of a run. -/
def wordAt (ram : List Host.Cell) (r : Run) (offset : Nat) : Word :=
  Memory.read ram (2 * (32 * r.first + offset) + 1) ++ Memory.read ram (2 * (32 * r.first + offset))

/-- R27, R28, R36: the event ends the access that the request in progress waits for, and `t` is the event's own effect: the
word is marked, counted, logged, and the words after it are served as far as they are ready. -/
abbrev EndsWith (s : State) (c : Instr) (t : State) : Prop :=
  ∃ r, s.fetch.request = some r ∧ 1 ≤ r.left ∧
    ((∃ rd, c = .romReadDone rd ∧ s.fetch.romCycle = .read
        ∧ ((resolve s.tables.live.entries r.address r.kind = .passthrough
            ∧ t = State.served { s with fetch := { wordMarked s.fetch r (some rd) with romCycle := .none } })
          ∨ ∃ i, resolve s.tables.live.entries r.address r.kind = .countOnly i
            ∧ t = State.served { s with
                fetch := { wordMarked s.fetch r (some rd) with romCycle := .none }
                tables := hitsAt s.tables i 1 }))
      ∨ (∃ w fd, c = .romWriteDone fd ∧ s.fetch.romCycle = .write w ∧ r.left = 1
        ∧ t = { s.logShadow r w with fetch := { wordMarked s.fetch r none with romCycle := .none } })
      ∨ ∃ k g i, c = .fetchRamReadDone ∧ s.mem.arbiter.idled.serving = some (.fetchRead k)
        ∧ (s.segment k.handle).run = some g
        ∧ resolve s.tables.live.entries r.address r.kind = .replace k.handle k.offset i
        ∧ t = State.served { s with
            fetch := wordMarked s.fetch r (some (wordAt s.mem.ram g k.offset))
            tables := hitsAt s.tables i 1
            mem := { s.mem with arbiter := s.mem.arbiter.idled.passed } })

/-- R43, R47: the `k` granules from `g` on exist and are all free. -/
abbrev RunIsFree (s : State) (g k : Nat) : Prop :=
  g + k ≤ Config.granules ∧ ∀ i < k, ∀ h : Handle, (s.segment h).owns (g + i) = false

/-- A descriptor replaced in patch memory. -/
def PatchMemory.withSegment (m : PatchMemory) (h : Handle) (g : Segment) : PatchMemory :=
  { m with segments := m.segments.set h g }

/-- R54, R57: the pointer is unset and the read latch emptied if the pointer is on this handle. -/
def PatchMemory.pointerOff (m : PatchMemory) (h : Handle) : PatchMemory :=
  if m.pointer.any (fun p => p.handle == h) then { m with pointer := none, readLatch := none } else m

/-- R42: the two memories differ at most in the word at an offset of a run, which the new one holds as `w`. -/
abbrev WordStored (old new : List Host.Cell) (r : Run) (offset : Nat) (w : Word) : Prop :=
  wordAt new r offset = w
    ∧ ∀ a, a ≠ 2 * (32 * r.first + offset) → a ≠ 2 * (32 * r.first + offset) + 1 →
        Memory.read new a = Memory.read old a

/-- R73, R75, R181: the parameter area asks for this entry: every field its kind uses is in range and the entry holds it. -/
abbrev EntryAsked (s : State) (e : Entry) : Prop :=
  param3 s 0 1 2 = e.base.toNat ∧ param2 s 3 4 = e.length ∧ 1 ≤ e.length ∧ e.length ≤ 4096
    ∧ e.base.toNat + e.length ≤ 0x80000 ∧ e.hits = 0 ∧ param1 s 6 = e.applies.number
    ∧ match e.body with
      | .replace h o => param1 s 5 = 1 ∧ param1 s 7 = h.val + 1 ∧ param2 s 8 9 = o ∧ o ≤ 16383
      | .fill v => param1 s 5 = 2 ∧ v = param s 11 ++ param s 10
      | .trap v => param1 s 5 = 3 ∧ v = param s 11 ++ param s 10
      | .count => param1 s 5 = 4

/-- R76: the segment of a REPLACE entry is SEALED and the entry stays within its sealed length. -/
abbrev SegmentReady (s : State) (e : Entry) : Prop :=
  ∀ h o, e.body = .replace h o → ∃ r d, s.segment h = .sealed r d ∧ o + e.length ≤ d.length

/-- R77: the two ranges share an address. -/
abbrev SharesAddress (e f : Entry) : Prop :=
  e.base.toNat < f.base.toNat + f.length ∧ f.base.toNat < e.base.toNat + e.length

/-- R52, R53, R82: patch memory after one decrement claim for each REPLACE entry of one list, then one increment claim for each
of another. -/
def memoryExchanged (s : State) (out into : List Entry) : PatchMemory :=
  { memoryLowered s out with
    segments := Vector.ofFn fun h => ((s.segment h).lowered (namedBy out h)).raised (namedBy into h) }

/-- R88, R183: the parameter area asks for this commit. -/
abbrev CommitAsked (s : State) (c : PendingCommit) : Prop :=
  c.probation = param s 5 ++ param s 4 ∧ param1 s 6 = c.tolerance.val
    ∧ match c.mode with
      | .now => param1 s 0 = 1
      | .atAddress a => param1 s 0 = 2 ∧ param3 s 1 2 3 = a.toNat
      | .atTargetReset => param1 s 0 = 3

/-- R24: a moment of fetch idle, or no such moment, that takes no acceptance: a request is in progress, or nothing stands, or
the processor is in reset. -/
abbrev NoAcceptance (s : State) : Prop :=
  s.fetch.request.isSome = true ∨ s.fetch.standing = none ∨ s.pins.trst = true

/-- R89: the state in which a commit has been recorded and STAGED locked. -/
def commitRecorded (s : State) (c : PendingCommit) : State :=
  { s with tables := { s.tables with stagedLock := true }, gen := { s.gen with state := .commitPending c } }

/-- The twenty commands of R180, with their codes. -/
def commandRows : List (Instr × Byte) :=
  [(.segAlloc, 0x10), (.segSelect, 0x11), (.segSeal, 0x12), (.segUnseal, 0x13), (.segFree, 0x14), (.segInfo, 0x15),
   (.stgInsert, 0x20), (.stgRemove, 0x21), (.stgClear, 0x22), (.stgCopyLive, 0x23), (.tblRead, 0x24),
   (.cntClear, 0x30), (.commit, 0x40), (.commitAbort, 0x41), (.revert, 0x42), (.confirm, 0x43), (.genStatus, 0x44),
   (.logPop, 0x50), (.logClear, 0x51), (.ldrStatus, 0x60)]

/-- R175, R184: the twelve bytes that report a loader's record. -/
def loaderReport (l : Loader) (committed : Nat) : List Byte :=
  [byte l.state.code, byte l.phase.code, byte (slotCode l.slot), byte l.recordsTaken, byte l.outcome.overall.code,
    byte (slotCode l.outcome.slotUsed), byte l.outcome.slotA.result.code, byte l.outcome.slotA.index,
    byte l.outcome.slotB.result.code, byte l.outcome.slotB.index, byte committed,
    if l.outcome.probation then 1 else 0]

/-- R170 to R173: the state after the failure of the slot with a result and a record index: the report is written, every
block the slot touched is back at its reset values with the RAM content kept, and slot A gives way to slot B in a new
transaction, while slot B ends the run with LOADER_DONE. -/
def slotFailed (s : State) (x : Slot) (r : SlotResult) (index : Nat) : State :=
  { s with
    tables := tablesReset
    gen := genReset
    mem := { memReset with ram := s.mem.ram }
    loader :=
      match x with
      | .a => { s.loader with
          phase := .header, slot := some .b, transaction := some 0x010000
          header := none, bodyRead := 0, recordsTaken := 0, segmentMap := [], remainder := 0xFFFFFFFF, current := none
          outcome := { s.loader.outcome with slotA := { result := r, index := index } } }
      | .b => { s.loader with
          state := .done, phase := .none, slot := none, transaction := none
          header := none, bodyRead := 0, recordsTaken := 0, segmentMap := [], remainder := 0xFFFFFFFF, current := none
          outcome := { s.loader.outcome with slotB := { result := r, index := index }, overall := .noValidImage } }
    irq :=
      match x with
      | .a => s.irq
      | .b => { s.irq with pending := s.irq.pending ||| 0b0100000 } }

/-- R164: the loader waits for the type byte of a record, in slot `x` under the header `h`. -/
abbrev AtRecord (s : State) (x : Slot) (h : ImageHeader) : Prop :=
  s.pins.xrst = false ∧ s.loader.state = .running ∧ s.loader.phase = .records ∧ s.loader.current = none
    ∧ s.loader.slot = some x ∧ s.loader.header = some h

/-- R164: the loader with these body bytes read and folded. -/
def bytesRead (l : Loader) (bs : List Byte) : Loader :=
  { l with bodyRead := l.bodyRead + bs.length, remainder := bs.foldl crc32Byte l.remainder }

/-- R165: a SEGMENT record's fixed part as it stands in the flash. -/
def segmentFixedBytes (length : Word) (crc : Crc32) : List Byte :=
  [0x01, byte length.toNat, byte (length.toNat / 256), byte crc.toNat, byte (crc.toNat / 256),
    byte (crc.toNat / 65536), byte (crc.toNat / 16777216)]

/-- R167, R185: the ENTRY record's fields ask for this entry, a REPLACE entry naming its segment by ordinal in the map. -/
abbrev RecordAsks (map : List Handle) (base : BitVec 24) (length : Word) (kind applies ordinal : Byte)
    (offset value : Word) (e : Entry) : Prop :=
  base.toNat = e.base.toNat ∧ length.toNat = e.length ∧ 1 ≤ e.length ∧ e.length ≤ 4096
    ∧ e.base.toNat + e.length ≤ 0x80000 ∧ e.hits = 0 ∧ applies.toNat = e.applies.number
    ∧ match e.body with
      | .replace h o => kind = 1 ∧ map[ordinal.toNat]? = some h ∧ offset.toNat = o ∧ o ≤ 16383
      | .fill v => kind = 2 ∧ v = value
      | .trap v => kind = 3 ∧ v = value
      | .count => kind = 4

/-! ### The whole -/

/-- R42: patch RAM is in its canonical form: addresses strictly rising, and no entry equal to what an unlisted byte reads as. -/
abbrev MemoryForm (s : State) : Prop := Memory.wf s.mem.ram = true

/-- Everything above together. -/
abbrev Inv (s : State) : Prop :=
  MemoryForm s ∧ TablesForm s.tables ∧ NumbersDiffer s.tables ∧ ReferencesCounted s ∧ EntriesBacked s
    ∧ CondemnedNamed s ∧ RunsForm s ∧ LengthsForm s ∧ PointerForm s ∧ LockForm s ∧ PriorForm s ∧ TrialForm s
    ∧ s.log.form = true ∧ LatchForm s ∧ fetchForm s = true ∧ TargetForm s ∧ HeldForm s ∧ UnheldForm s
    ∧ LoaderSealForm s ∧ LoaderForm s ∧ progressForm s = true ∧ MapForm s ∧ jobForm s = true
    ∧ arbiterForm s.mem.arbiter = true ∧ BuildingForm s ∧ ZeroEmpty s.tables ∧ ChipResetForm s ∧ FillForm s ∧ PresenceForm s

end Sys2Proof.Machine
end

