-- ==== Sys2Proof/Certificates/Slice0/Obligations.lean ====
section
/-! DEFINITION. The statements for the provers, rule by rule. The vocabulary (what a switch, a revert or a list of claims
leaves, when an event is taken, and the forms that always hold) is in Safety.lean. Every statement about a command is an
equation for the next state, so it also says what stays. -/

section

open Sys2Proof Sys2Proof.Machine

/-! ### The step and the resets -/

/-- The interface of the row: a step runs the command at the front of the queue with the queue's rest. -/
def Obligations.StepRunsTheFrontCommand : Prop :=
  ∀ (c : Instr) (rest : List Instr) (s : State), s.pending = c :: rest →
    step s = exec c { s with pending := rest }

/-- R110 with the model's choices of logs 1, 5 and 9: on an empty queue outside chip reset a data-port access that has
the patch RAM port ends (R65); else a request whose first word is ready at once is begun (R29); else what waits at fetch
idle is taken, a movement first (R90, R102) and otherwise the presentation that stands (R21); where nothing waits the
divider moves on by one CLK period, and the period that brings it from 31,999 back to 0 is the millisecond tick. -/
def Obligations.EmptyQueueIsOneClockPeriod : Prop :=
  ∀ s : State, s.pending = [] →
    (s.pins.xrst = true → step s = .next s)
    ∧ (s.pins.xrst = false → s.mem.arbiter.serving = some .dataAccess →
        step s = .next { s with mem := { s.mem with arbiter := s.mem.arbiter.passed } })
    ∧ (s.pins.xrst = false → s.mem.arbiter.serving ≠ some .dataAccess →
      NoReadyWord s → (s.fetch.request.isSome = true ∨ (NoAcceptance s ∧ movementWaits s = false)) →
      (s.divider.val < 31999 →
        ∃ d : Fin 32000, d.val = s.divider.val + 1 ∧ step s = .next { s with divider := d })
      ∧ (s.divider.val = 31999 → step s = exec .msTick s))
    ∧ (s.pins.xrst = false → s.mem.arbiter.serving ≠ some .dataAccess → ¬ NoReadyWord s →
        step s = exec .fetchAccept s)
    ∧ (s.pins.xrst = false → s.mem.arbiter.serving ≠ some .dataAccess → s.fetch.request = none →
      (∀ c, s.gen.state = .commitPending c → c.mode = .now → step s = exec .switch s)
      ∧ (∀ o, s.gen.state = .revertWaiting o → step s = exec .revertTaken s)
      ∧ (movementWaits s = false → s.fetch.standing.isSome = true → s.pins.trst = false →
          step s = exec .fetchAccept s))

/-- R19, R40, R68, R107, R134, R139, R141, R154, R156, R174: the state at the end of power-on, field by field, and what
the window then reads (R179). The model's choices among them are the levels found, none of them asserted and LDEN low
(log 6), no byte listed in patch RAM before its fill (log 7), no trial asked for (log 15), and the records of what FRDY
marked and WD drove, empty (log 21). -/
def Obligations.ResetStateHoldsTheResetValues : Prop :=
  State.reset.pins = { xrst := false, trst := false, freq := false } ∧ State.reset.windowData = none
    ∧ State.reset.tables = { staged := [], stagedLock := false, live := { entries := [], generation := 0 }, prior := none }
    ∧ State.reset.gen = { state := .steady, counter := 0, timer := 0, resetCount := 0, tolerance := 0, lastOutcome := .none }
    ∧ State.reset.fetch = { standing := none, request := none, romAddress := 0, romCycle := .none, beats := [] }
    ∧ State.reset.mem.ram = [] ∧ (∀ h, State.reset.segment h = .free) ∧ State.reset.mem.pointer = none
    ∧ State.reset.mem.writeLatch = 0 ∧ State.reset.mem.readLatch = none ∧ State.reset.mem.dataReject = false
    ∧ State.reset.mem.crcJob = none
    ∧ State.reset.mem.arbiter = { serving := none, fetchWaits := none, dataWaits := false, crcWaits := false }
    ∧ State.reset.log = { records := [], nextSequence := 0 }
    ∧ State.reset.irq = { pending := 0, enable := 0 }
    ∧ State.reset.cmd.command = 0 ∧ (∀ i : Fin 16, State.reset.cmd.params[i] = 0) ∧ State.reset.cmd.result = .ok
    ∧ State.reset.cmd.busy = none ∧ State.reset.cmd.refused = false
    ∧ State.reset.loader.state = .running ∧ State.reset.loader.phase = .zeroFill ∧ State.reset.loader.slot = none
    ∧ State.reset.loader.lden = false ∧ State.reset.loader.header = none ∧ State.reset.loader.bodyRead = 0
    ∧ State.reset.loader.recordsTaken = 0 ∧ State.reset.loader.segmentMap = []
    ∧ State.reset.loader.remainder = 0xFFFFFFFF ∧ State.reset.loader.current = none
    ∧ State.reset.loader.asksTrial = false ∧ State.reset.loader.transaction = none
    ∧ State.reset.loader.outcome =
        { overall := .none, slotUsed := none, slotA := { result := .notTried, index := 0 },
          slotB := { result := .notTried, index := 0 }, committed := none, probation := false }
    ∧ State.reset.divider = 0 ∧ State.reset.pending = []
    ∧ windowByte State.reset 0x01 = 0x08
    ∧ (∀ o : BitVec 5, o ∉ [0x01#5, 0x05#5, 0x06#5] → windowByte State.reset o = 0)
    ∧ windowByte State.reset 0x05 = 0xFF ∧ windowByte State.reset 0x06 = 0xFF

/-- R40, R156, R176: the end of power-on, the assertion of XRST# and its release take every block to its reset values;
the ends of reset start a loader run with LDEN sampled, and patch RAM keeps its words through a chip reset. The model's
choices: power-on leaves no byte listed in patch RAM (log 7) and XRST# released (log 22), every reset leaves the records
of outputs empty (log 21) and no trial asked for (log 15), and an event that changes no level changes nothing (log 3).
-/
def Obligations.ResetsTakeEveryBlockToItsResetValues : Prop :=
  ∀ (s : State) (lden trst freq : Bool),
    exec (.powerOn lden trst freq) s = .next { State.reset with
      pins := { xrst := false, trst := trst, freq := freq }
      loader := { State.reset.loader with lden := lden }
      pending := s.pending }
    ∧ (s.pins.xrst = false → exec .xrstAssert s = .next { State.reset with
        pins := { s.pins with xrst := true }
        mem := { State.reset.mem with ram := s.mem.ram }
        loader := { State.reset.loader with state := .idle, phase := .none }
        pending := s.pending })
    ∧ (s.pins.xrst = true → exec (.xrstRelease lden) s = .next { State.reset with
        pins := { s.pins with xrst := false }
        mem := { State.reset.mem with ram := s.mem.ram }
        loader := { State.reset.loader with lden := lden }
        pending := s.pending })
    ∧ (s.pins.xrst = true → exec .xrstAssert s = .next s)
    ∧ (s.pins.xrst = false → exec (.xrstRelease lden) s = .next s)

/-- Every form of Safety.lean holds in the state after reset, the model's own among them (logs 7, 8, 9, 12). -/
def Obligations.TheResetStateIsWellFormed : Prop := Inv State.reset

/-- R38, R90, R92, R99, R102: an assertion of TRST# ends the request in progress and then takes a pending NOW or
AT_TARGET_RESET switch, or a waiting revert of any origin; with none of these it does no more. R21, R91: its release lets
the port accept the presentation that stands, within which an AT_ADDRESS switch that it meets is taken first (log 1). An
event that changes no level changes nothing (log 3). -/
def Obligations.TargetResetEndsTheRequestAndTakesWhatWaits : Prop :=
  (∀ s : State, s.pins.xrst = false →
      (s.pins.trst = false →
        (s.gen.state = .steady ∨ ∃ c a, s.gen.state = .commitPending c ∧ c.mode = .atAddress a) →
          exec .trstAssert s = .next (requestEnded s))
      ∧ (s.pins.trst = true → exec .trstAssert s = .next s)
      ∧ (s.pins.trst = true → s.fetch.request = none → movementWaits s = false →
          (s.fetch.standing = none →
            exec .trstRelease s = .next { s with pins := { s.pins with trst := false } })
          ∧ ∀ p, s.fetch.standing = some p →
            (NoSwitchAt s p →
              exec .trstRelease s = .next (({ s with pins := { s.pins with trst := false } }).begun p))
            ∧ ∀ c a n, s.gen.state = .commitPending c → c.mode = .atAddress a → p.meets a = true →
                n = switchNumber s.gen.counter s.tables.live.generation →
                exec .trstRelease s
                  = .next ((switchedState { s with pins := { s.pins with trst := false } } c n).switchBegun p))
      ∧ (s.pins.trst = false → exec .trstRelease s = .next s))
  ∧ (∀ s : State, s.pins.xrst = false → s.pins.trst = false →
      (∀ c, s.gen.state = .commitPending c → c.mode = .now ∨ c.mode = .atTargetReset →
        exec .trstAssert s = .next (switchedState (requestEnded s) c
          (switchNumber s.gen.counter s.tables.live.generation)))
      ∧ (∀ o p, s.gen.state = .revertWaiting o → s.tables.prior = some p →
          exec .trstAssert s = .next (revertedState (requestEnded s) p o)))

/-- R112, R113: in PROBATION the assertion is counted; where the count passes the tolerance the revert is decided and
taken within the same assertion, which is the event RESET_EXCESS (log 4). -/
def Obligations.TargetResetIsCountedInProbation : Prop :=
  ∀ s : State, s.pins.xrst = false → s.pins.trst = false → s.gen.state = .probation →
    (s.gen.resetCount + 1 ≤ s.gen.tolerance.val →
      exec .trstAssert s = .next { requestEnded s with
        gen := { s.gen with resetCount := s.gen.resetCount + 1 } }
      ∧ exec .resetExcess s = .next s)
    ∧ (∀ p c, s.gen.resetCount + 1 > s.gen.tolerance.val → s.tables.prior = some p →
        c = .trstAssert ∨ c = .resetExcess →
        exec c s = .next { requestEnded s with
          tables := { s.tables with live := p, prior := some s.tables.live }
          gen := { s.gen with
            state := .steady, resetCount := s.gen.resetCount + 1, lastOutcome := .resetsReverted }
          irq := { s.irq with pending := s.irq.pending ||| 0b0001000 } })

/-! ### The fetch port -/

/-- R20, R21: a presentation the port cannot accept stands, and so does one beside a waiting movement (R24, log 1), and the
release of FREQ# withdraws it; where the port is idle, the withdrawal lets a movement that waits be taken (R90, R102;
logs 1, 2). In chip reset both are the level alone, and an event that changes no level changes nothing (log 3). R186:
FLEN's codes 0 to 3 are 1, 2, 4 and 8 words, FKIND is low for CODE, FWR low for a read. -/
def Obligations.APresentationStandsOrIsWithdrawn : Prop :=
  (∀ (s : State) (fa : FetchAddr) (l : FetchLength) (k : FetchKind) (d : FetchDir) (fd : Word),
    (s.pins.xrst = false → s.pins.freq = false →
      (s.fetch.request.isSome = true ∨ s.pins.trst = true ∨ movementWaits s = true) →
        exec (.freqPresent fa l k d fd) s = .next { s with
          pins := { s.pins with freq := true }
          fetch := { s.fetch with
            standing := some { address := fa, length := l, kind := k, dir := d, data := fd } } })
    ∧ (s.pins.xrst = false → s.pins.freq = true → ∀ withdrawn : State, withdrawn = { s with
          pins := { s.pins with freq := false }
          fetch := { s.fetch with standing := none } } →
        (s.fetch.request.isSome = true ∨ movementWaits s = false → exec .freqRelease s = .next withdrawn)
        ∧ (s.fetch.request = none → ∀ c, s.gen.state = .commitPending c → c.mode = .now →
            exec .freqRelease s = .next (switchedState withdrawn c
              (switchNumber s.gen.counter s.tables.live.generation)))
        ∧ (s.fetch.request = none → ∀ o q, s.gen.state = .revertWaiting o → s.tables.prior = some q →
            exec .freqRelease s = .next (revertedState withdrawn q o)))
    ∧ (s.pins.xrst = true →
        exec (.freqPresent fa l k d fd) s = .next { s with pins := { s.pins with freq := true } }
        ∧ exec .freqRelease s = .next { s with pins := { s.pins with freq := false } })
    ∧ (s.pins.freq = true → exec (.freqPresent fa l k d fd) s = .next s)
    ∧ (s.pins.freq = false → exec .freqRelease s = .next s))
  ∧ (∀ (fa : FetchAddr) (flen : BitVec 2) (fkind fwr : Bool) (fd : Word), ∃ l,
      fetchWords l = 2 ^ flen.toNat
        ∧ presentLines fa flen fkind fwr fd
            = .freqPresent fa l (if fkind then .data else .code) (if fwr then .write else .read) fd)

/-- R22: an acceptance of a read, by whatever event, takes FA with its low bits cleared to the length's alignment; the
words it delivers at once (log 2, recorded in `beats`, log 10) are at consecutive addresses from there, and the request
it leaves in progress stands at the next one. FETCH_ACCEPT is such an acceptance, and so is a presentation to an open
port. -/
def Obligations.AnAcceptedReadIsAligned : Prop :=
  ∀ (s t : State) (p : Presentation) (first : FetchAddr), p.dir = .read → first = alignAddress p.address p.length →
    t = s.accept p →
    first.toNat = p.address.toNat - p.address.toNat % fetchWords p.length
    ∧ (s.pins.xrst = false → s.pins.trst = false → s.fetch.request = none → s.fetch.standing = some p →
        exec .fetchAccept s = .next t)
    ∧ (∀ u, PortOpen u → s = { u with
          pins := { u.pins with freq := true }
          fetch := { u.fetch with standing := some p } } →
        exec (.freqPresent p.address p.length p.kind p.dir p.data) u = .next t)
    ∧ t.fetch.beats.map (·.address) = (List.range t.fetch.beats.length).map (fun n => first + BitVec.ofNat 19 n)
    ∧ (t.fetch.request = none → t.fetch.beats.length = fetchWords p.length)
    ∧ ∀ r, t.fetch.request = some r →
        r.first = first ∧ r.length = p.length ∧ r.dir = .read ∧ r.kind = p.kind
          ∧ r.left + t.fetch.beats.length = fetchWords p.length
          ∧ r.address = first + BitVec.ofNat 19 t.fetch.beats.length

/-- R3, R4, R37: against a table of R9 a word resolves by the one entry whose range holds it, if that entry's applies
field matches the kind; a write is shadowed by a REPLACE or FILL entry whatever its applies field. -/
def Obligations.AWordResolvesByTheEntryThatHoldsIt : Prop :=
  ∀ (es : List Entry) (a : FetchAddr) (k : FetchKind), TableForm es →
    ((∀ e ∈ es, ¬ (e.base.toNat ≤ a.toNat ∧ a.toNat < e.base.toNat + e.length)) →
      resolve es a k = .passthrough ∧ shadowIndex es a = none)
    ∧ ∀ (i : Nat) (e : Entry), es[i]? = some e → e.base.toNat ≤ a.toNat → a.toNat < e.base.toNat + e.length →
        ((e.applies = .code ∧ k = .data) ∨ (e.applies = .data ∧ k = .code) → resolve es a k = .passthrough)
        ∧ (¬ ((e.applies = .code ∧ k = .data) ∨ (e.applies = .data ∧ k = .code)) →
            resolve es a k = match e.body with
              | .replace h o => .replace h (o + (a.toNat - e.base.toNat)) i
              | .fill v => .fill v i
              | .trap v => .trap v i
              | .count => .countOnly i)
        ∧ shadowIndex es a = match e.body with
              | .replace _ _ => some i
              | .fill _ => some i
              | .trap _ => none
              | .count => none

/-- R21, R25, R26, R28, R35: an acceptance fills the request from the lines and the current LIVE and starts what its
first word needs: a ROM read cycle for a word that passes through or counts, a fetch read claim for a replaced word, a
ROM write cycle for a write. A read that takes no switch is served as far as its words are ready (log 2). R91: the
acceptance of a CODE read whose aligned first address is the switch address first takes the AT_ADDRESS switch, so the
request latches the new generation and its words resolve against it; it is one event with the switch, at a presentation
to an open port as at FETCH_ACCEPT or SWITCH (log 4) where the presentation stands. Its first word, if filled or
trapped, is left for the next FETCH_ACCEPT to deliver (log 1). -/
def Obligations.AnAcceptanceStartsTheFirstWord : Prop :=
  (∀ (s : State) (p : Presentation), PortOpen s → NoSwitchAt s p →
      (p.dir = .read →
        exec (.freqPresent p.address p.length p.kind p.dir p.data) s
          = .next (State.served (accepted { s with pins := { s.pins with freq := true } } p)))
      ∧ (p.dir = .read →
        (resolve s.tables.live.entries (alignAddress p.address p.length) p.kind = .passthrough
          ∨ ∃ i, resolve s.tables.live.entries (alignAddress p.address p.length) p.kind = .countOnly i) →
        exec (.freqPresent p.address p.length p.kind p.dir p.data) s = .next { s with
          pins := { s.pins with freq := true }
          fetch :=
            { standing := none, request := some (acceptedRequest s p),
              romAddress := alignAddress p.address p.length, romCycle := .read, beats := [] } })
      ∧ (p.dir = .read → ∀ h o i,
        resolve s.tables.live.entries (alignAddress p.address p.length) p.kind = .replace h o i →
        exec (.freqPresent p.address p.length p.kind p.dir p.data) s = .next { s with
          pins := { s.pins with freq := true }
          fetch := { s.fetch with standing := none, request := some (acceptedRequest s p), beats := [] }
          mem := { s.mem with arbiter :=
            if s.mem.arbiter.serving.isSome then { s.mem.arbiter with fetchWaits := some { handle := h, offset := o } }
            else { s.mem.arbiter with serving := some (.fetchRead { handle := h, offset := o }), fetchWaits := none } } })
      ∧ (p.dir = .write →
        exec (.freqPresent p.address p.length p.kind p.dir p.data) s = .next { s with
          pins := { s.pins with freq := true }
          fetch :=
            { standing := none, request := some (acceptedRequest s p),
              romAddress := alignAddress p.address p.length, romCycle := .write p.data, beats := [] } }))
  ∧ (∀ (s t begun : State) (fa : FetchAddr) (l : FetchLength) (fd : Word) (c : PendingCommit) (n : Generation)
      (first : FetchAddr), first = alignAddress fa l →
      s.gen.state = .commitPending c → c.mode = .atAddress first →
      n = switchNumber s.gen.counter s.tables.live.generation →
      begun = { switchedState s c n with
        fetch := { s.fetch with
          standing := none
          request := some
            { first := first, length := l, kind := .code, dir := .read, latch := n, left := fetchWords l }
          beats := [] } } →
      t = (match resolve s.tables.staged first .code with
        | .passthrough => { begun with fetch := { begun.fetch with romAddress := first, romCycle := .read } }
        | .countOnly _ => { begun with fetch := { begun.fetch with romAddress := first, romCycle := .read } }
        | .replace h o _ => { begun with
            mem := { begun.mem with arbiter := s.mem.arbiter.fetchAsked { handle := h, offset := o } } }
        | .fill _ _ => begun
        | .trap _ _ => begun) →
      (s.pins.xrst = false → s.pins.trst = false → s.fetch.request = none →
        s.fetch.standing = some { address := fa, length := l, kind := .code, dir := .read, data := fd } →
        exec .fetchAccept s = .next t ∧ exec .switch s = .next t)
      ∧ (∀ u, PortOpen u → s = { u with
          pins := { u.pins with freq := true }
          fetch := { u.fetch with
            standing := some { address := fa, length := l, kind := .code, dir := .read, data := fd } } } →
        exec (.freqPresent fa l .code .read fd) u = .next t))

/-- R6, R8, R25, R28 to R30, R32, R124 to R129: a read whose words all lie in one FILL entry, or all in one TRAP entry
with room in the log, is delivered whole within its acceptance: FLEN words of the entry's value in ascending order (the
words FRDY marked are kept in `beats`, log 10; all in one step, log 2), one hit for each, and for a TRAP entry one
record for each. In any request, whatever its words resolve to and whatever the log holds, serving goes word by word: a
filled or trapped word is marked and counted, a trapped one handed to the log, and the next word is then served; any
other word starts its ROM read cycle or presents its fetch read claim, and waits. -/
def Obligations.FilledAndTrappedWordsAreDeliveredAtOnce : Prop :=
  (∀ (s : State) (p : Presentation) (v : Word) (i : Nat) (delivered : State),
      PortOpen s → NoSwitchAt s p → p.dir = .read → CountsInRange s.tables →
      delivered = { s with
        pins := { s.pins with freq := true }
        fetch := { s.fetch with
          standing := none
          request := none
          beats := (List.range (fetchWords p.length)).map fun n =>
            { address := alignAddress p.address p.length + BitVec.ofNat 19 n, data := some v } }
        tables := hitsAt s.tables i (fetchWords p.length) } →
      ((∀ n < fetchWords p.length,
          resolve s.tables.live.entries (alignAddress p.address p.length + BitVec.ofNat 19 n) p.kind = .fill v i) →
        exec (.freqPresent p.address p.length p.kind p.dir p.data) s = .next delivered)
      ∧ ((∀ n < fetchWords p.length,
          resolve s.tables.live.entries (alignAddress p.address p.length + BitVec.ofNat 19 n) p.kind = .trap v i) →
        s.log.records.length + fetchWords p.length ≤ 16 →
        exec (.freqPresent p.address p.length p.kind p.dir p.data) s = .next { delivered with
          log :=
            { records := s.log.records ++ (List.range (fetchWords p.length)).map fun n =>
                { sequence := s.log.nextSequence + BitVec.ofNat 16 n
                  address := alignAddress p.address p.length + BitVec.ofNat 19 n
                  entryIndex := i, generation := s.tables.live.generation, body := .trap p.kind }
              nextSequence := s.log.nextSequence + BitVec.ofNat 16 (fetchWords p.length) }
          irq := { s.irq with pending := s.irq.pending ||| 0b0000001 } }))
  ∧ (∀ s : State, (s.fetch.request = none → s.served = s)
      ∧ ∀ r x, s.fetch.request = some r → 1 ≤ r.left → r.left ≤ fetchWords r.length → CountsInRange s.tables →
        resolve s.tables.live.entries r.address r.kind = x →
        match x with
        | .passthrough => s.served = { s with fetch := { s.fetch with romAddress := r.address, romCycle := .read } }
        | .countOnly _ => s.served = { s with fetch := { s.fetch with romAddress := r.address, romCycle := .read } }
        | .replace h o _ => s.served = { s with
            mem := { s.mem with arbiter := s.mem.arbiter.fetchAsked { handle := h, offset := o } } }
        | .fill v i => s.served = State.served { s with
            fetch := wordMarked s.fetch r (some v), tables := hitsAt s.tables i 1 }
        | .trap v i => s.served = State.served { s.handOver
              { address := r.address, entryIndex := i, generation := r.latch, body := .trap r.kind } with
            fetch := wordMarked s.fetch r (some v), tables := hitsAt s.tables i 1 })

/-- R27, R30, R31, R32: the end of a ROM read cycle delivers the word on RD, with a hit for a counted word; the last
word ends the request, and after any other the next word is served: its ROM cycle is started, its fetch read claim is
presented, or, filled or trapped, it is delivered too and the one after it served (log 2). Without a read cycle RRDY has
no effect (R26). What waits for the end of the request stays waiting (log 1). The words FRDY marked are kept in `beats`
(log 10). -/
def Obligations.ARomReadDeliversItsWord : Prop :=
  ∀ (s : State) (rd : Word), s.pins.xrst = false →
    (∀ (r : Request) (delivered : TableStore), s.fetch.romCycle = .read → s.fetch.request = some r →
      CountsInRange s.tables → r.left ≤ fetchWords r.length →
      ((resolve s.tables.live.entries r.address r.kind = .passthrough ∧ delivered = s.tables)
        ∨ ∃ i, resolve s.tables.live.entries r.address r.kind = .countOnly i ∧ delivered = hitsAt s.tables i 1) →
      (r.left = 1 →
        exec (.romReadDone rd) s = .next { s with
          fetch := { s.fetch with
            romCycle := .none
            request := none
            beats := s.fetch.beats ++ [{ address := r.address, data := some rd }] }
          tables := delivered })
      ∧ (2 ≤ r.left →
          (resolve s.tables.live.entries (r.address + 1) r.kind = .passthrough
            ∨ ∃ i, resolve s.tables.live.entries (r.address + 1) r.kind = .countOnly i) →
          exec (.romReadDone rd) s = .next { s with
            fetch := { s.fetch with
              romAddress := r.address + 1
              romCycle := .read
              request := some { r with left := r.left - 1 }
              beats := s.fetch.beats ++ [{ address := r.address, data := some rd }] }
            tables := delivered })
      ∧ (2 ≤ r.left → ∀ h o i, resolve s.tables.live.entries (r.address + 1) r.kind = .replace h o i →
          exec (.romReadDone rd) s = .next { s with
            fetch := { s.fetch with
              romCycle := .none
              request := some { r with left := r.left - 1 }
              beats := s.fetch.beats ++ [{ address := r.address, data := some rd }] }
            tables := delivered
            mem := { s.mem with arbiter := s.mem.arbiter.fetchAsked { handle := h, offset := o } } })
      ∧ (1 ≤ r.left → ∀ t, t = State.served { s with
            fetch := { wordMarked s.fetch r (some rd) with romCycle := .none }
            tables := delivered } → exec (.romReadDone rd) s = .next t))
    ∧ (s.fetch.romCycle ≠ .read → exec (.romReadDone rd) s = .next s)

/-- R28, R30, R32, R65: the end of a fetch read of patch RAM frees the port, which goes to the claim that waits, a
data-port access before a CRC read, and delivers the segment's word with a hit; the last word ends the request, and
after any other the next one is served: its ROM cycle is started, its fetch read claim is presented, behind the access
then granted, or, filled or trapped, it is delivered too and the one after it served (log 2). The read is the one that
has the port, or the one granted at the end of a data-port access that had it (log 9). A read that TRST# withdrew has
its word discarded (R38). With no fetch read served it is no event (log 3). What waits for the end of the request stays
waiting (log 1). The words FRDY marked are kept in `beats` (log 10). -/
def Obligations.AFetchReadDeliversTheSegmentsWord : Prop :=
  ∀ (s : State) (a : Arbiter), s.pins.xrst = false → a = s.mem.arbiter.idled →
    (∀ (c : FetchClaim) (r : Request) (g : Run) (i : Nat) (w : Word), a.serving = some (.fetchRead c) →
      s.fetch.request = some r → (s.segment c.handle).run = some g → CountsInRange s.tables →
      resolve s.tables.live.entries r.address r.kind = .replace c.handle c.offset i → w = wordAt s.mem.ram g c.offset →
      r.left ≤ fetchWords r.length →
      (r.left = 1 →
        exec .fetchRamReadDone s = .next { s with
          fetch := { s.fetch with
            request := none
            beats := s.fetch.beats ++ [{ address := r.address, data := some w }] }
          tables := hitsAt s.tables i 1
          mem := { s.mem with arbiter := a.passed } })
      ∧ (2 ≤ r.left →
          (resolve s.tables.live.entries (r.address + 1) r.kind = .passthrough
            ∨ ∃ j, resolve s.tables.live.entries (r.address + 1) r.kind = .countOnly j) →
          exec .fetchRamReadDone s = .next { s with
            fetch := { s.fetch with
              romAddress := r.address + 1
              romCycle := .read
              request := some { r with left := r.left - 1 }
              beats := s.fetch.beats ++ [{ address := r.address, data := some w }] }
            tables := hitsAt s.tables i 1
            mem := { s.mem with arbiter := a.passed } })
      ∧ (2 ≤ r.left → ∀ h o j, resolve s.tables.live.entries (r.address + 1) r.kind = .replace h o j →
          a.fetchWaits = none →
          exec .fetchRamReadDone s = .next { s with
            fetch := { s.fetch with
              request := some { r with left := r.left - 1 }
              beats := s.fetch.beats ++ [{ address := r.address, data := some w }] }
            tables := hitsAt s.tables i 1
            mem := { s.mem with arbiter :=
              if a.dataWaits = true then
                { serving := some .dataAccess, fetchWaits := some { handle := h, offset := o }, dataWaits := false
                  crcWaits := a.crcWaits }
              else if a.crcWaits = true then
                { serving := some .crcRead, fetchWaits := some { handle := h, offset := o }, dataWaits := false
                  crcWaits := false }
              else { serving := some (.fetchRead { handle := h, offset := o }), fetchWaits := none
                     dataWaits := false, crcWaits := false } } })
      ∧ (1 ≤ r.left → ∀ t, t = State.served { s with
            fetch := wordMarked s.fetch r (some w)
            tables := hitsAt s.tables i 1
            mem := { s.mem with arbiter := a.passed } } → exec .fetchRamReadDone s = .next t))
    ∧ (s.mem.arbiter.serving = some .discarded →
        exec .fetchRamReadDone s = .next { s with mem := { s.mem with arbiter := s.mem.arbiter.passed } })
    ∧ (a.serving = none ∨ a.serving = some .dataAccess ∨ a.serving = some .crcRead →
        exec .fetchRamReadDone s = .next s)

/-- R31, R35 to R37, R128, R129: the end of a ROM write cycle marks its word, hands a SHADOW record for a shadowed one,
which the log appends or, with 16 held, drops, and starts the next word's cycle or ends the request. A write counts no
hit. Without a write cycle RRDY has no effect (R26). What waits for the end of the request stays waiting (log 1). The
words FRDY marked are kept in `beats` (log 10). -/
def Obligations.ARomWriteEndsItsWord : Prop :=
  ∀ (s : State) (fd : Word), s.pins.xrst = false →
    (∀ (r : Request) (w : Word) (logged : State), s.fetch.romCycle = .write w → s.fetch.request = some r →
      r.left ≤ fetchWords r.length →
      ((shadowIndex s.tables.live.entries r.address = none ∧ logged = s)
        ∨ (∃ i, shadowIndex s.tables.live.entries r.address = some i ∧ s.log.records.length < 16
            ∧ logged = { s with
                log :=
                  { records := s.log.records ++ [
                      { sequence := s.log.nextSequence, address := r.address,
                        entryIndex := i, generation := r.latch, body := .shadow w }]
                    nextSequence := s.log.nextSequence + 1 }
                irq := { s.irq with pending := s.irq.pending ||| 0b0000001 } })
        ∨ ∃ i oldest rest, shadowIndex s.tables.live.entries r.address = some i ∧ s.log.records.length = 16
            ∧ s.log.records = oldest :: rest
            ∧ logged = { s with
                log := { s.log with nextSequence :=
                  if s.log.nextSequence = oldest.sequence then s.log.nextSequence else s.log.nextSequence + 1 }
                irq := { s.irq with pending := s.irq.pending ||| 0b0000010 } }) →
      (r.left = 1 →
        exec (.romWriteDone fd) s = .next { logged with
          fetch := { s.fetch with
            romCycle := .none
            request := none
            beats := s.fetch.beats ++ [{ address := r.address, data := none }] } })
      ∧ (2 ≤ r.left →
          exec (.romWriteDone fd) s = .next { logged with
            fetch := { s.fetch with
              romAddress := r.address + 1
              romCycle := .write fd
              request := some { r with left := r.left - 1 }
              beats := s.fetch.beats ++ [{ address := r.address, data := none }] } }))
    ∧ (s.fetch.romCycle = .none ∨ s.fetch.romCycle = .read → exec (.romWriteDone fd) s = .next s)

/-- R17, R21, R24, R90, R102: the end of a request, by whichever event and whatever its last word resolves to, leaves a
movement that waits to its own event, SWITCH or REVERT_TAKEN, and a presentation that stands to FETCH_ACCEPT. With both
waiting either may be first: FETCH_ACCEPT is the acceptance; SWITCH and REVERT_TAKEN are the movement alone, and the
acceptance that follows is served by the new LIVE. R91: an AT_ADDRESS switch is never taken alone: where the
presentation that stands meets its address, FETCH_ACCEPT and SWITCH are one and the same acceptance (log 4), the switch
taken first within it, and FETCH_ACCEPT then delivers a first word that is ready at once (R29). A command may come
between any two of these events. What stays waiting is the model's choice of log 1. -/
def Obligations.AMomentOfFetchIdleTakesWhatWaits : Prop :=
  (∀ (s t : State) (c : Instr), s.pins.xrst = false → CountsInRange s.tables → EndsWith s c t → exec c s = .next t)
  ∧ (∀ (s : State) (p : Presentation), s.pins.xrst = false → s.pins.trst = false → s.fetch.request = none →
      s.fetch.standing = some p →
      (NoSwitchAt s p → exec .fetchAccept s = .next (s.begun p))
      ∧ (∀ c n, s.gen.state = .commitPending c → n = switchNumber s.gen.counter s.tables.live.generation →
          (∀ a, c.mode = .atAddress a → p.meets a = true →
            exec .fetchAccept s = .next ((switchedState s c n).switchBegun p) ∧ exec .switch s = exec .fetchAccept s)
          ∧ (c.mode = .now → exec .switch s = .next (switchedState s c n)
            ∧ exec .fetchAccept (switchedState s c n) = .next ((switchedState s c n).begun p)))
      ∧ (∀ o q, s.gen.state = .revertWaiting o → s.tables.prior = some q →
          exec .revertTaken s = .next (revertedState s q o)
          ∧ exec .fetchAccept (revertedState s q o) = .next ((revertedState s q o).begun p)))
  ∧ (∀ s : State, s.pins.xrst = false → ¬ NoReadyWord s → exec .fetchAccept s = .next s.served)

/-! ### Patch memory -/

/-- R43, R46, R47, R182: SEG_ALLOC's checks in their order; the lowest-numbered FREE handle opens over the
lowest-numbered run of `k` free granules, and nothing else changes. The write to CMD finds an earlier data-port access
ended (R65, log 9). -/
def Obligations.AllocationIsFirstFitForTheLowestHandle : Prop :=
  ∀ s : State, Ready s →
    (param2 s 0 1 = 0 ∨ 512 < param2 s 0 1 → exec .segAlloc s = .next (s.answered 0x10 .badParam []))
    ∧ (1 ≤ param2 s 0 1 → param2 s 0 1 ≤ 512 →
      ((∀ h, s.segment h ≠ .free) → exec .segAlloc s = .next (s.answered 0x10 .noHandle []))
      ∧ ∀ h, s.segment h = .free → (∀ j < h, s.segment j ≠ .free) →
          ((∀ g, ¬ RunIsFree s g (param2 s 0 1)) → exec .segAlloc s = .next (s.answered 0x10 .noSpace []))
          ∧ ∀ g, RunIsFree s g (param2 s 0 1) → (∀ g' < g, ¬ RunIsFree s g' (param2 s 0 1)) →
              exec .segAlloc s = .next (State.answered
                { s with mem := s.mem.withSegment h (.opened { first := g, count := param2 s 0 1 }) }
                0x10 .ok (byte (h.val + 1) :: bytes2 g ++ bytes2 (param2 s 0 1) ++ bytes2 (32 * param2 s 0 1))))

/-- R45, R54, R182: the handle check of the segment commands; SEG_SELECT sets the pointer on a segment in any non-FREE
state and empties the read latch. The write to CMD finds an earlier data-port access ended (R65, log 9). -/
def Obligations.HandlesAreCheckedAndSelectSetsThePointer : Prop :=
  (∀ s : State, Ready s →
      (∀ (c : Instr) (code : Byte),
        (c, code) ∈ [(Instr.segSelect, (0x11 : Byte)), (.segSeal, 0x12), (.segUnseal, 0x13), (.segFree, 0x14)] →
          (param1 s 0 = 0 ∨ 48 < param1 s 0 → exec c s = .next (s.answered code .badParam []))
          ∧ ∀ h : Handle, param1 s 0 = h.val + 1 → s.segment h = .free →
              exec c s = .next (s.answered code .notFound []))
      ∧ (param1 s 0 = 0 ∨ 48 < param1 s 0 → exec .segInfo s = .next (s.answered 0x15 .badParam [])))
  ∧ (∀ (s : State) (h : Handle) (r : Run), Ready s → param1 s 0 = h.val + 1 → (s.segment h).run = some r →
      (param2 s 1 2 < 32 * r.count →
        exec .segSelect s = .next (State.answered
          { s with mem := { s.mem with pointer := some { handle := h, offset := param2 s 1 2 }, readLatch := none } }
          0x11 .ok (byte (s.segment h).stateCode :: bytes2 (32 * r.count))))
      ∧ (32 * r.count ≤ param2 s 1 2 → exec .segSelect s = .next (s.answered 0x11 .badParam [])))

/-- R61, R146: a SEG_SEAL of an OPEN segment with a length in range makes it SEALING, gives the CRC engine its job and
holds the unit BUSY; the parameter area keeps the parameters. Any other state is WRONG_STATE, any other length
BAD_PARAM. The write to CMD finds an earlier data-port access ended (R65, log 9). -/
def Obligations.SealTakesTheCrcJobAndHoldsTheUnit : Prop :=
  ∀ (s : State) (h : Handle), Ready s → param1 s 0 = h.val + 1 →
    (∀ r, s.segment h = .opened r →
      (1 ≤ param2 s 1 2 → param2 s 1 2 ≤ 32 * r.count →
        exec .segSeal s = .next { s with
          mem := { s.mem.withSegment h (.sealing r (param2 s 1 2)) with
            crcJob := some
              { handle := h, length := param2 s 1 2, remainder := 0xFFFFFFFF, offset := 0, forLoader := false
                expected := param s 6 ++ param s 5 ++ param s 4 ++ param s 3 }
            arbiter := s.mem.arbiter.idled.asked }
          cmd := { s.cmd with command := 0x12, busy := some .segSeal, result := .busy } })
      ∧ (param2 s 1 2 = 0 ∨ 32 * r.count < param2 s 1 2 →
          exec .segSeal s = .next (s.answered 0x12 .badParam [])))
    ∧ ((∃ r n, s.segment h = .sealing r n) ∨ (∃ r d, s.segment h = .sealed r d)
        ∨ (∃ r d, s.segment h = .condemned r d) →
          exec .segSeal s = .next (s.answered 0x12 .wrongState []))

/-- R60, R62, R63, R65, R146: a CRC read folds its word into the remainder and claims the next; the read of the last
word completes the seal: the computed CRC against the expected one decides between SEALED and OPEN, the result carries
the computed CRC, BUSY ends and CMD_DONE is raised. That read is SEAL_COMPLETE (log 4), which at any other moment is no
event (log 3). The read is the one that has the port, or the one granted at the end of a data-port access that had it
(log 9). -/
def Obligations.CrcReadsFoldEveryWordAndTheLastOneCompletesTheSeal : Prop :=
  (∀ (s : State) (a : Arbiter), s.pins.xrst = false → a = s.mem.arbiter.idled →
      (∀ (j : CrcJob) (r : Run), a.serving = some .crcRead → s.mem.crcJob = some j →
        (s.segment j.handle).run = some r → j.offset + 1 < j.length →
          exec .crcWordRead s = .next { s with
            mem := { s.mem with
              crcJob := some { j with
                remainder := crc32Word j.remainder (wordAt s.mem.ram r j.offset)
                offset := j.offset + 1 }
              arbiter := { a with serving := none }.asked } }
          ∧ exec .sealComplete s = .next s)
      ∧ (a.serving ≠ some .crcRead →
          exec .crcWordRead s = .next s ∧ exec .sealComplete s = .next s))
  ∧ (∀ (s : State) (j : CrcJob) (r : Run) (crc : Crc32), s.pins.xrst = false →
      s.mem.arbiter.idled.serving = some .crcRead → s.mem.crcJob = some j → j.forLoader = false →
      s.segment j.handle = .sealing r j.length → j.offset + 1 = j.length →
      crc = crc32Word j.remainder (wordAt s.mem.ram r j.offset) ^^^ 0xFFFFFFFF →
      ∀ c, c = .crcWordRead ∨ c = .sealComplete →
        exec c s = .next { s with
          mem := { s.mem.withSegment j.handle
              (if crc = j.expected then .sealed r { length := j.length, crc := crc, references := 0 } else .opened r) with
            crcJob := none
            arbiter := s.mem.arbiter.idled.passed }
          cmd := { s.cmd with
            busy := none
            result := if crc = j.expected then .ok else .crcMismatch
            params := resultBytes (bytes4 crc.toNat) }
          irq := { s.irq with pending := s.irq.pending ||| 0b0010000 } })

/-- R49, R50, R54: SEG_UNSEAL reopens a SEALED segment that no entry names, and any other non-FREE segment is
WRONG_STATE. SEG_FREE frees an OPEN or an unnamed SEALED segment and condemns a named one, unsetting a pointer on it; a
CONDEMNED or SEALING segment is WRONG_STATE, with no result item (log 13). The write to CMD finds an earlier data-port
access ended (R65, log 9). -/
def Obligations.UnsealReopensAndFreeReleasesOrCondemns : Prop :=
  (∀ (s : State) (h : Handle), Ready s → param1 s 0 = h.val + 1 →
      (∀ r d, s.segment h = .sealed r d → d.references = 0 →
        exec .segUnseal s = .next (State.answered { s with mem := s.mem.withSegment h (.opened r) } 0x13 .ok []))
      ∧ ((∃ r, s.segment h = .opened r) ∨ (∃ r n, s.segment h = .sealing r n)
          ∨ (∃ r d, s.segment h = .sealed r d ∧ 0 < d.references) ∨ (∃ r d, s.segment h = .condemned r d) →
        exec .segUnseal s = .next (s.answered 0x13 .wrongState [])))
  ∧ (∀ (s : State) (h : Handle), Ready s → param1 s 0 = h.val + 1 →
      ((∃ r, s.segment h = .opened r) ∨ (∃ r d, s.segment h = .sealed r d ∧ d.references = 0) →
        exec .segFree s = .next (State.answered
          { s with mem := (s.mem.withSegment h .free).pointerOff h } 0x14 .ok [0, 0]))
      ∧ (∀ r d, s.segment h = .sealed r d → 0 < d.references →
        exec .segFree s = .next (State.answered
          { s with mem := (s.mem.withSegment h (.condemned r d)).pointerOff h } 0x14 .ok [4, byte d.references]))
      ∧ ((∃ r n, s.segment h = .sealing r n) ∨ (∃ r d, s.segment h = .condemned r d) →
        exec .segFree s = .next (s.answered 0x14 .wrongState [])))

/-- R48, R182: SEG_INFO answers OK for every handle, packs the descriptor with the summary of the pool, and changes
nothing but the answer. The write to CMD finds an earlier data-port access ended (R65, log 9). -/
def Obligations.InfoReportsTheDescriptorAndThePool : Prop :=
  ∀ (s : State) (h : Handle) (longest first count : Nat), Ready s → param1 s 0 = h.val + 1 →
    (∃ g, RunIsFree s g longest) → (∀ g m, RunIsFree s g m → m ≤ longest) →
    (∀ r, (s.segment h).run = some r → first = r.first ∧ count = r.count) →
    ((s.segment h).run = none → first = 0 ∧ count = 0) →
      exec .segInfo s = .next (s.answered 0x15 .ok
        (bytes2 ((s.segment h).stateCode + 64 * longest)
          ++ bytes2 (first + 512 * (s.segment h).references)
          ++ bytes2 (count + 1024 * (List.finRange 48).countP (fun k => s.segment k = .free))
          ++ bytes2 (s.segment h).sealedLength
          ++ bytes4 (s.segment h).crc.toNat
          ++ bytes2 ((List.range 512).countP (fun g => decide (RunIsFree s g 1))
              + 1024 * match s.mem.pointer with
                | none => 0
                | some p => p.handle.val + 1)
          ++ bytes2 (match s.mem.pointer with
                | none => 0
                | some p => p.offset + 32768)))

/-- R42, R55 to R58: DATA_LO stores the write latch at any time; DATA_HI writes one word of the OPEN segment under the
pointer and moves the pointer on, and in every other case drops the word and sets DATA_REJECT. A DATA_LO read returns
the low byte at the pointer and latches the high byte; the DATA_HI read then returns that and moves the pointer on,
except at the capacity. A read that is not served returns FFh and sets DATA_REJECT. A word that is read or written is
claimed at the arbiter, behind an access in progress, and every access finds that of an earlier one ended (R65, log 9).
The byte driven on WD is kept in `windowData` (log 10). -/
def Obligations.TheDataPortReadsAndWritesAtThePointer : Prop :=
  (∀ (s : State) (v : Byte), s.pins.xrst = false →
      exec (.dataLoWrite v) s = .next { s with mem := { (windowBegun s).mem with writeLatch := v } }
      ∧ (∀ p r, MemoryForm s → s.loader.state ≠ .running → s.mem.pointer = some p → s.segment p.handle = .opened r →
          p.offset < 32 * r.count →
          ∃ ram, exec (.dataHiWrite v) s = .next { s with
              mem := { s.mem with
                ram := ram, pointer := some { p with offset := p.offset + 1 }
                arbiter := s.mem.arbiter.idled.dataAsked } }
            ∧ Memory.wf ram = true ∧ WordStored s.mem.ram ram r p.offset (v ++ s.mem.writeLatch))
      ∧ ((s.loader.state = .running ∨ s.mem.pointer = none
          ∨ ∃ p, s.mem.pointer = some p ∧
              ((∀ r, s.segment p.handle ≠ .opened r) ∨ ∃ r, s.segment p.handle = .opened r ∧ 32 * r.count ≤ p.offset)) →
          exec (.dataHiWrite v) s = .next { s with mem := { (windowBegun s).mem with dataReject := true } }))
  ∧ (∀ s : State, s.pins.xrst = false →
      (s.loader.state ≠ .running →
        (∀ p r, s.mem.pointer = some p → (s.segment p.handle).run = some r →
          (p.offset < 32 * r.count →
            exec .dataLoRead s = .next { s with
              mem := { s.mem with
                readLatch := some (Memory.read s.mem.ram (2 * (32 * r.first + p.offset) + 1))
                arbiter := s.mem.arbiter.idled.dataAsked }
              windowData := some (Memory.read s.mem.ram (2 * (32 * r.first + p.offset))) })
          ∧ ∀ b, s.mem.readLatch = some b →
            exec .dataHiRead s = .next { s with
              mem := { (windowBegun s).mem with
                readLatch := none
                pointer := some { p with offset := if p.offset < 32 * r.count then p.offset + 1 else p.offset } }
              windowData := some b }))
      ∧ (s.loader.state = .running ∨ s.mem.pointer = none
          ∨ (∃ p r, s.mem.pointer = some p ∧ (s.segment p.handle).run = some r ∧ 32 * r.count ≤ p.offset) →
        exec .dataLoRead s = .next { s with
          mem := { (windowBegun s).mem with readLatch := none, dataReject := true }
          windowData := some 0xFF })
      ∧ (s.loader.state = .running ∨ s.mem.readLatch = none →
        exec .dataHiRead s = .next { s with
          mem := { (windowBegun s).mem with dataReject := true }
          windowData := some 0xFF }))

/-- R28, R56, R157: the words of a SEALING, SEALED or CONDEMNED segment are the same after every command; power-on alone
takes patch RAM with it. -/
def Obligations.TheWordsOfASealedSegmentNeverChange : Prop :=
  ∀ (s t : State) (c : Instr) (h : Handle) (r : Run) (offset : Nat), Inv s → exec c s = .next t →
    (∀ lden trst freq, c ≠ .powerOn lden trst freq) → (s.segment h).run = some r → s.segment h ≠ .opened r →
    offset < 32 * r.count → wordAt t.mem.ram r offset = wordAt s.mem.ram r offset

/-! ### The staged table and the counts -/

/-- R74 to R77: STG_INSERT's checks in their order, and what each refusal answers. The write to CMD finds an earlier
data-port access ended (R65, log 9). -/
def Obligations.InsertMakesItsChecksInOrder : Prop :=
  ∀ (s : State) (refused : ResultCode → Nat → Prop), Ready s →
    (∀ r conflict, refused r conflict ↔
      exec .stgInsert s = .next (s.answered 0x20 r [byte conflict, byte s.tables.staged.length])) →
    (s.tables.stagedLock = true → refused .stageLocked 0)
    ∧ (s.tables.stagedLock = false →
      ((∀ e, ¬ EntryAsked s e) → refused .badParam 0)
      ∧ ∀ e, EntryAsked s e →
          (∀ h o, e.body = .replace h o →
            ((∀ r d, s.segment h ≠ .sealed r d) → refused .wrongState 0)
            ∧ ∀ r d, s.segment h = .sealed r d → d.length < o + e.length → refused .range 0)
          ∧ (SegmentReady s e →
            (32 ≤ s.tables.staged.length → refused .tableFull 0)
            ∧ (s.tables.staged.length < 32 → ∀ i f, s.tables.staged[i]? = some f → SharesAddress e f →
                (∀ j < i, ∀ g, s.tables.staged[j]? = some g → ¬ SharesAddress e g) → refused .overlap i)))

/-- R78: an insert that passes every check places the entry at the number of staged entries below its base, with hits 0,
and a REPLACE entry's segment gains a reference. The write to CMD finds an earlier data-port access ended (R65, log 9).
-/
def Obligations.InsertPlacesTheEntryInOrder : Prop :=
  ∀ (s : State) (e : Entry) (p : Nat), Ready s → s.tables.stagedLock = false → EntryAsked s e → SegmentReady s e →
    s.tables.staged.length < 32 → (∀ f ∈ s.tables.staged, ¬ SharesAddress e f) →
    p = s.tables.staged.countP (fun f => decide (f.base.toNat < e.base.toNat)) →
      (e.segment? = none →
        exec .stgInsert s = .next (State.answered
          { s with tables := { s.tables with staged := s.tables.staged.take p ++ e :: s.tables.staged.drop p } }
          0x20 .ok [byte p, byte (s.tables.staged.length + 1), 0]))
      ∧ ∀ h o r d, e.body = .replace h o → s.segment h = .sealed r d →
        exec .stgInsert s = .next (State.answered
          { s with
            tables := { s.tables with staged := s.tables.staged.take p ++ e :: s.tables.staged.drop p }
            mem := s.mem.withSegment h (.sealed r { d with references := d.references + 1 }) }
          0x20 .ok [byte p, byte (s.tables.staged.length + 1), byte (d.references + 1)])

/-- R79, R80, R53: STG_REMOVE's checks in their order; it takes out the entry with exactly the base, and a REPLACE
entry's segment loses a reference, which frees a CONDEMNED segment at its last. The write to CMD finds an earlier
data-port access ended (R65, log 9). -/
def Obligations.RemoveTakesTheEntryWithTheBase : Prop :=
  ∀ s : State, Ready s →
    (s.tables.stagedLock = true →
      exec .stgRemove s = .next (s.answered 0x21 .stageLocked [0, byte s.tables.staged.length]))
    ∧ (s.tables.stagedLock = false →
      (0x80000 ≤ param3 s 0 1 2 →
        exec .stgRemove s = .next (s.answered 0x21 .badParam [0, byte s.tables.staged.length]))
      ∧ (param3 s 0 1 2 < 0x80000 → (∀ e ∈ s.tables.staged, e.base.toNat ≠ param3 s 0 1 2) →
        exec .stgRemove s = .next (s.answered 0x21 .notFound [0, byte s.tables.staged.length]))
      ∧ ∀ i e, TableForm s.tables.staged → s.tables.staged[i]? = some e → e.base.toNat = param3 s 0 1 2 →
          exec .stgRemove s = .next (State.answered
            { s with
              tables := { s.tables with staged := s.tables.staged.eraseIdx i }
              mem := memoryLowered s [e] }
            0x21 .ok (byte i :: byte (s.tables.staged.length - 1) :: match e.body with
              | .replace h _ => [1, byte (h.val + 1), byte ((s.segment h).lowered 1).references,
                  byte ((s.segment h).lowered 1).stateCode]
              | .fill _ => [2, 0, 0, 0]
              | .trap _ => [3, 0, 0, 0]
              | .count => [4, 0, 0, 0])))

/-- R52, R53, R81, R82: STG_CLEAR empties STAGED with one decrement claim for each REPLACE entry; STG_COPY_LIVE replaces
STAGED by LIVE's entries with hits 0, the decrement claims of the old STAGED coming before the increment claims of the
copies. A locked STAGED refuses both. The write to CMD finds an earlier data-port access ended (R65, log 9). -/
def Obligations.ClearAndCopyLiveReplaceStaged : Prop :=
  (∀ s : State, Ready s →
      (s.tables.stagedLock = true → exec .stgClear s = .next (s.answered 0x22 .stageLocked []))
      ∧ (s.tables.stagedLock = false →
          exec .stgClear s = .next (State.answered
            { s with tables := { s.tables with staged := [] }, mem := memoryLowered s s.tables.staged }
            0x22 .ok [byte s.tables.staged.length, byte (s.tables.staged.countP fun e => e.segment?.isSome)])))
  ∧ (∀ s : State, Ready s →
      (s.tables.stagedLock = true → exec .stgCopyLive s = .next (s.answered 0x23 .stageLocked []))
      ∧ (s.tables.stagedLock = false →
          exec .stgCopyLive s = .next (State.answered
            { s with
              tables := { s.tables with staged := s.tables.live.entries.map fun e => { e with hits := 0 } }
              mem := memoryExchanged s s.tables.staged s.tables.live.entries }
            0x23 .ok (byte s.tables.live.entries.length :: byte s.tables.staged.length
              :: bytes2 s.tables.live.generation.toNat))))

/-- R18, R181: TBL_READ answers one entry of the selected table with its hits, or the count alone at an index past the
end; it is answered while the loader runs, and changes no table. The write to CMD finds an earlier data-port access
ended (R65, log 9). -/
def Obligations.TableReadAnswersOneEntry : Prop :=
  ∀ s : State, Unheld s →
    (2 < param1 s 0 → exec .tblRead s = .next (s.answered 0x24 .badParam []))
    ∧ ∀ es, (param1 s 0 = 0 ∧ es = s.tables.staged) ∨ (param1 s 0 = 1 ∧ es = s.tables.live.entries)
        ∨ (param1 s 0 = 2 ∧ es = s.tables.priorEntries) →
      (es.length ≤ param1 s 1 →
        exec .tblRead s = .next (s.answered 0x24 .ok (List.replicate 15 0 ++ [byte es.length])))
      ∧ ∀ e, es[param1 s 1]? = some e →
        exec .tblRead s = .next (s.answered 0x24 .ok
          (bytes3 e.base.toNat ++ bytes2 e.length
            ++ (match e.body with
              | .replace h o => [1, byte e.applies.number, byte (h.val + 1), byte o, byte (o / 256), 0, 0]
              | .fill v => [2, byte e.applies.number, 0, 0, 0, byte v.toNat, byte (v.toNat / 256)]
              | .trap v => [3, byte e.applies.number, 0, 0, 0, byte v.toNat, byte (v.toNat / 256)]
              | .count => [4, byte e.applies.number, 0, 0, 0, 0, 0])
            ++ bytes3 e.hits ++ [byte (128 + es.length)]))

/-- R33, R181: CNT_CLEAR sets one hits count of LIVE to 0, or all of them, and no other field. The write to CMD finds an
earlier data-port access ended (R65, log 9). -/
def Obligations.CountClearActsOnLive : Prop :=
  ∀ s : State, Ready s →
    (param1 s 0 = 0 →
      exec .cntClear s = .next (State.answered
        { s with tables := { s.tables with live := { s.tables.live with
            entries := s.tables.live.entries.modify (param1 s 1) fun e => { e with hits := 0 } } } }
        0x30 .ok ((if param1 s 1 < s.tables.live.entries.length then 1 else 0)
          :: bytes2 s.tables.live.generation.toNat)))
    ∧ (param1 s 0 = 1 →
      exec .cntClear s = .next (State.answered
        { s with tables := { s.tables with live := { s.tables.live with
            entries := s.tables.live.entries.map fun e => { e with hits := 0 } } } }
        0x30 .ok (byte s.tables.live.entries.length :: bytes2 s.tables.live.generation.toNat)))
    ∧ (2 ≤ param1 s 0 → exec .cntClear s = .next (s.answered 0x30 .badParam []))

/-! ### Generations and probation -/

/-- R12: the number a switch gives is the value after the counter, or the one after that where LIVE carries the first,
going from 65,535 to 1; it is never 0 and never LIVE's own. -/
def Obligations.ASwitchNumbersTheNewGeneration : Prop :=
  ∀ counter live : Generation,
    (switchNumber counter live).toNat = numberGiven counter.toNat live.toNat
      ∧ switchNumber counter live ≠ 0 ∧ switchNumber counter live ≠ live

/-- R88 to R93, R183: what refuses a COMMIT, in the order of its checks. A COMMIT that is taken locks STAGED, is
answered with the number its switch will give, and waits for its moment; a NOW commit that finds the port idle with no
acceptance to take is switched within the command (log 2), and with one stands beside it (log 1). The write to CMD finds
an earlier data-port access ended (R65, log 9). -/
def Obligations.CommitLocksStagedAndWaitsForItsMoment : Prop :=
  (∀ s : State, Ready s →
      (∀ c, s.gen.state = .commitPending c → exec .commit s = .next (s.answered 0x40 .commitPending [1]))
      ∧ (s.gen.state = .probation → exec .commit s = .next (s.answered 0x40 .inProbation [2]))
      ∧ (∀ o, s.gen.state = .revertWaiting o → exec .commit s = .next (s.answered 0x40 .busy [3]))
      ∧ (s.gen.state = .steady → (∀ c, ¬ CommitAsked s c) → exec .commit s = .next (s.answered 0x40 .badParam [0])))
  ∧ (∀ (s : State) (c : PendingCommit) (n : Generation) (recorded : State), Ready s → s.gen.state = .steady →
      CommitAsked s c → n = switchNumber s.gen.counter s.tables.live.generation →
      recorded = (commitRecorded s c).answered 0x40 .ok
        (byte s.tables.staged.length :: bytes2 n.toNat ++ [byte c.mode.code]) →
        (s.fetch.request.isSome = true ∨ ¬ NoAcceptance s ∨ c.mode ≠ .now → exec .commit s = .next recorded)
        ∧ (c.mode = .now → s.fetch.request = none → NoAcceptance s →
            exec .commit s = .next (switchedState recorded c n)))

/-- R90, R93: SWITCH is the taking of a NOW commit at fetch idle: STAGED becomes LIVE under the new number with hits 0,
the old LIVE becomes PRIOR, the old PRIOR's entries give back their references, the trial begins and SWITCHED is raised.
R91: an AT_ADDRESS commit is switched within an acceptance only: where the presentation that stands meets its address,
SWITCH is the acceptance that FETCH_ACCEPT is (log 4). R102: REVERT_TAKEN is the taking of a revert that waits: LIVE and
PRIOR are exchanged, a manual revert answers the held command with its two numbers, an automatic one raises REVERTED.
With a request in progress or nothing of the kind waiting they are no events (log 3). Beside a NOW switch or a revert a
presentation that stands is left for its own acceptance (log 1). -/
def Obligations.SwitchAndRevertMoveTheTables : Prop :=
  (∀ s : State, s.pins.xrst = false →
      (∀ c n, s.gen.state = .commitPending c → s.fetch.request = none → c.mode = .now →
        n = switchNumber s.gen.counter s.tables.live.generation →
          exec .switch s = .next { s with
            tables :=
              { staged := [], stagedLock := false
                live := { entries := s.tables.staged.map fun e => { e with hits := 0 }, generation := n }
                prior := some s.tables.live }
            gen :=
              { state := if c.probation = 0 then .steady else .probation
                counter := n, timer := c.probation, resetCount := 0, tolerance := c.tolerance
                lastOutcome := .none }
            mem := memoryLowered s s.tables.priorEntries
            irq := { s.irq with pending := s.irq.pending ||| 0b0000100 } })
      ∧ (∀ c a p, s.gen.state = .commitPending c → c.mode = .atAddress a → s.fetch.request = none →
          s.pins.trst = false → s.fetch.standing = some p → p.meets a = true →
          exec .switch s = exec .fetchAccept s)
      ∧ ((s.fetch.request.isSome = true ∨ ∀ c, s.gen.state = .commitPending c → c.mode ≠ .now ∧
            ∀ p, s.fetch.standing = some p → s.pins.trst = true ∨ NoSwitchAt s p) →
          exec .switch s = .next s))
  ∧ (∀ s : State, s.pins.xrst = false →
      (∀ p, s.tables.prior = some p → s.fetch.request = none →
        (s.gen.state = .revertWaiting .manual →
          exec .revertTaken s = .next { s with
            tables := { s.tables with live := p, prior := some s.tables.live }
            gen := { s.gen with state := .steady }
            cmd := { s.cmd with
              result := .ok, busy := none
              params := resultBytes (bytes2 p.generation.toNat ++ bytes2 s.tables.live.generation.toNat) } })
        ∧ (s.gen.state = .revertWaiting .expiry ∨ s.gen.state = .revertWaiting .resets →
          exec .revertTaken s = .next { s with
            tables := { s.tables with live := p, prior := some s.tables.live }
            gen := { s.gen with state := .steady }
            irq := { s.irq with pending := s.irq.pending ||| 0b0001000 } }))
      ∧ (s.fetch.request.isSome = true ∨ (∀ o, s.gen.state ≠ .revertWaiting o) → exec .revertTaken s = .next s))

/-- R97, R98: COMMIT_ABORT removes the pending commit and unlocks STAGED, which keeps its entries. A presentation that
stood against the waiting switch is left for FETCH_ACCEPT (log 1), which accepts it, a read served as far as its words
are ready (log 2). In every other state it is NONE_PENDING. The write to CMD finds an earlier data-port access ended
(R65, log 9). -/
def Obligations.CommitAbortUnlocksStaged : Prop :=
  ∀ s : State, Ready s →
    (∀ c aborted, s.gen.state = .commitPending c →
      aborted = State.answered
        { s with tables := { s.tables with stagedLock := false }, gen := { s.gen with state := .steady } }
        0x41 .ok [byte c.mode.code, byte s.tables.staged.length] →
      exec .commitAbort s = .next aborted
      ∧ ∀ p, s.pins.trst = false → s.fetch.request = none → s.fetch.standing = some p →
          exec .fetchAccept aborted = .next (aborted.begun p))
    ∧ (s.gen.state = .steady → exec .commitAbort s = .next (s.answered 0x41 .nonePending [0]))
    ∧ (s.gen.state = .probation → exec .commitAbort s = .next (s.answered 0x41 .nonePending [2]))
    ∧ (∀ o, s.gen.state = .revertWaiting o → exec .commitAbort s = .next (s.answered 0x41 .nonePending [3]))

/-- R100 to R102, R146, R183: REVERT's refusals in order; taken, it ends a trial as MANUAL_REVERTED, and exchanges LIVE
and PRIOR at once where the port is idle with no acceptance to take (log 2), or holds the unit BUSY until its revert is
taken (log 1). The write to CMD finds an earlier data-port access ended (R65, log 9). -/
def Obligations.RevertExchangesLiveAndPrior : Prop :=
  ∀ s : State, Ready s →
    (s.tables.prior = none → exec .revert s = .next (s.answered 0x42 .noPrior [byte s.gen.state.code]))
    ∧ ∀ p, s.tables.prior = some p →
      (∀ c, s.gen.state = .commitPending c → exec .revert s = .next (s.answered 0x42 .commitPending [1]))
      ∧ (∀ o, s.gen.state = .revertWaiting o → exec .revert s = .next (s.answered 0x42 .busy [3]))
      ∧ ∀ outcome, (s.gen.state = .steady ∧ outcome = s.gen.lastOutcome)
          ∨ (s.gen.state = .probation ∧ outcome = LastOutcome.manualReverted) →
        (s.fetch.request.isSome = true ∨ ¬ NoAcceptance s →
          exec .revert s = .next { windowBegun s with
            gen := { s.gen with state := .revertWaiting .manual, lastOutcome := outcome }
            cmd := { s.cmd with command := 0x42, result := .busy, busy := some .revert } })
        ∧ (s.fetch.request = none → NoAcceptance s →
          exec .revert s = .next { windowBegun s with
            tables := { s.tables with live := p, prior := some s.tables.live }
            gen := { s.gen with state := .steady, lastOutcome := outcome }
            cmd := { s.cmd with
              command := 0x42, result := .ok, busy := none
              params := resultBytes (bytes2 p.generation.toNat ++ bytes2 s.tables.live.generation.toNat) } })

/-- R114, R115, R183: CONFIRM ends a trial as CONFIRMED and reports the time left; outside PROBATION it is LATE after an
automatic decision and WRONG_STATE otherwise. The write to CMD finds an earlier data-port access ended (R65, log 9). -/
def Obligations.ConfirmEndsTheTrial : Prop :=
  ∀ s : State, Ready s →
    (s.gen.state = .probation →
      exec .confirm s = .next (State.answered
        { s with gen := { s.gen with state := .steady, lastOutcome := .confirmed } } 0x43 .ok
        (bytes2 s.tables.live.generation.toNat ++ bytes2 s.gen.timer.toNat ++ [byte s.gen.resetCount])))
    ∧ (s.gen.state ≠ .probation →
      (s.gen.lastOutcome = .expiredReverted ∨ s.gen.lastOutcome = .resetsReverted →
        exec .confirm s = .next (s.answered 0x43 .late [byte s.gen.state.code, byte s.gen.lastOutcome.code]))
      ∧ (s.gen.lastOutcome ≠ .expiredReverted → s.gen.lastOutcome ≠ .resetsReverted →
        exec .confirm s = .next
          (s.answered 0x43 .wrongState [byte s.gen.state.code, byte s.gen.lastOutcome.code])))

/-- R104, R175, R183, R184: GEN_STATUS reports the Generation Controller's record and LDR_STATUS the loader's; both are
answered while the loader runs and change nothing but the answer. The write to CMD finds an earlier data-port access
ended (R65, log 9). -/
def Obligations.StatusCommandsReportWhatStands : Prop :=
  (∀ (s : State) (origin priorNumber pending trial : Nat), Unheld s →
      (∀ o, s.gen.state = .revertWaiting o → origin = o.code) → ((∀ o, s.gen.state ≠ .revertWaiting o) → origin = 0) →
      (∀ p, s.tables.prior = some p → priorNumber = p.generation.toNat) → (s.tables.prior = none → priorNumber = 0) →
      (∀ c, s.gen.state = .commitPending c →
        pending = c.mode.address.toNat + 2 ^ 19 * c.tolerance.val + 2 ^ 22 * c.mode.code ∧ trial = c.probation.toNat) →
      ((∀ c, s.gen.state ≠ .commitPending c) → pending = 0 ∧ trial = 0) →
        exec .genStatus s = .next (s.answered 0x44 .ok
          ([byte (s.gen.state.code + 4 * origin + 16 * s.tables.prior.isSome.toNat + 32 * s.gen.lastOutcome.code),
              byte s.tables.live.entries.length]
            ++ bytes2 s.tables.live.generation.toNat ++ bytes2 priorNumber ++ bytes2 s.gen.counter.toNat
            ++ bytes3 pending ++ bytes2 trial ++ bytes2 s.gen.timer.toNat
            ++ [byte (s.gen.resetCount + 16 * s.gen.tolerance.val)])))
  ∧ (∀ (s : State) (committed : Nat), Unheld s →
      (∀ g, s.loader.outcome.committed = some g → committed = g.toNat) →
      (s.loader.outcome.committed = none → committed = 0) →
        exec .ldrStatus s = .next (s.answered 0x60 .ok (loaderReport s.loader committed)))

/-- R110, R111: the millisecond tick takes the divider to 0 (log 5) and, in PROBATION, lowers the timer; the tick from 1
to 0 decides the expiry, whose revert is taken within it where the port is idle (log 2), and waits where a request is in
progress or a presentation could be accepted (log 1). That tick is PROBATION_EXPIRY (log 4), which at any other moment
is no event (log 3). -/
def Obligations.ATickLowersTheProbationTimer : Prop :=
  ∀ s : State, s.pins.xrst = false →
    (s.gen.state ≠ .probation → exec .msTick s = .next { s with divider := 0 })
    ∧ (s.gen.state = .probation → 2 ≤ s.gen.timer.toNat →
      exec .msTick s = .next { s with divider := 0, gen := { s.gen with timer := s.gen.timer - 1 } })
    ∧ (s.gen.state = .probation → s.gen.timer = 1 → ∀ c, c = .msTick ∨ c = .probationExpiry →
      (s.fetch.request.isSome = true ∨ ¬ NoAcceptance s →
        exec c s = .next { s with
          divider := 0
          gen := { s.gen with state := .revertWaiting .expiry, timer := 0, lastOutcome := .expiredReverted } })
      ∧ (∀ p, s.tables.prior = some p → s.fetch.request = none → NoAcceptance s →
        exec c s = .next { s with
          divider := 0
          tables := { s.tables with live := p, prior := some s.tables.live }
          gen := { s.gen with state := .steady, timer := 0, lastOutcome := .expiredReverted }
          irq := { s.irq with pending := s.irq.pending ||| 0b0001000 } }))
    ∧ (s.gen.state ≠ .probation ∨ s.gen.timer ≠ 1 → exec .probationExpiry s = .next s)

/-! ### Event log, command unit, interrupts and window -/

/-- R128, R129: a record handed over below 16 held is appended with its number and raises LOGGED; at 16 held it is
dropped and raises OVERFLOW alone, and takes its number unless that is the oldest one held. -/
def Obligations.ARecordIsAppendedOrDropped : Prop :=
  ∀ (s : State) (h : Handover),
    (s.log.records.length < 16 → s.handOver h = { s with
      log :=
        { records := s.log.records ++ [
            { sequence := s.log.nextSequence, address := h.address, entryIndex := h.entryIndex,
              generation := h.generation, body := h.body }]
          nextSequence := s.log.nextSequence + 1 }
      irq := { s.irq with pending := s.irq.pending ||| 0b0000001 } })
    ∧ ∀ oldest rest, s.log.records = oldest :: rest → s.log.records.length = 16 → s.handOver h = { s with
        log := { s.log with nextSequence :=
          if s.log.nextSequence = oldest.sequence then s.log.nextSequence else s.log.nextSequence + 1 }
        irq := { s.irq with pending := s.irq.pending ||| 0b0000010 } }

/-- R131, R184: LOG_POP answers and removes the oldest record; from an empty log it is LOG_EMPTY and removes nothing.
The write to CMD finds an earlier data-port access ended (R65, log 9). -/
def Obligations.PopTakesTheOldestRecord : Prop :=
  ∀ s : State, Ready s →
    (s.log.records = [] → exec .logPop s = .next (s.answered 0x50 .logEmpty
      ([0, 0, 0, 0, 0, 0, 0, 0, 0, 0, 0, 0, 0] ++ bytes2 s.log.nextSequence.toNat)))
    ∧ ∀ r rest, s.log.records = r :: rest →
        exec .logPop s = .next (State.answered { s with log := { s.log with records := rest } } 0x50 .ok
          (bytes2 r.sequence.toNat
            ++ (match r.body with
              | .trap .code => [1, 1]
              | .trap .data => [1, 2]
              | .shadow _ => [2, 0])
            ++ bytes3 r.address.toNat ++ [byte r.entryIndex] ++ bytes2 r.generation.toNat
            ++ (match r.body with
              | .trap _ => [0, 0]
              | .shadow w => bytes2 w.toNat)
            ++ [byte rest.length] ++ bytes2 s.log.nextSequence.toNat))

/-- R133: LOG_CLEAR removes every held record and nothing else: the counter and the causes stay. While the loader runs
it is refused, and under BUSY it is not taken. The write to CMD finds an earlier data-port access ended (R65, log 9). -/
def Obligations.LogClearEmptiesTheLog : Prop :=
  ∀ s : State,
    (Ready s → exec .logClear s = .next (State.answered { s with log := { s.log with records := [] } } 0x51 .ok
      (byte s.log.records.length :: bytes2 s.log.nextSequence.toNat)))
    ∧ (Unheld s → s.loader.state = .running → exec .logClear s = .next (s.answered 0x51 .loaderActive []))
    ∧ (s.pins.xrst = false → s.cmd.busy.isSome = true → exec .logClear s = .next { windowBegun s with
        cmd := { s.cmd with refused := true }
        irq := { s.irq with pending := s.irq.pending ||| 0b1000000 } })

/-- R145: a write to CMD under BUSY is refused whatever its code: the REFUSED flag is set and the cause raised, and
nothing else changes; a parameter byte written under BUSY is ignored. Each finds an earlier data-port access ended (R65,
log 9). -/
def Obligations.AWriteToCmdUnderBusyIsRefused : Prop :=
  ∀ s : State, s.pins.xrst = false → s.cmd.busy.isSome = true →
    (∀ c, (∃ code, (c, code) ∈ commandRows) ∨ (∃ code, c = .badCommand code ∧ namesCommand code = false) →
      exec c s = .next { windowBegun s with
        cmd := { s.cmd with refused := true }
        irq := { s.irq with pending := s.irq.pending ||| 0b1000000 } })
    ∧ ∀ i v, exec (.parameterWrite i v) s = .next (windowBegun s)

/-- R143: while the loader runs every command but TBL_READ, GEN_STATUS and LDR_STATUS is answered LOADER_ACTIVE without
effect. The write to CMD finds an earlier data-port access ended (R65, log 9). -/
def Obligations.CommandsAreLoaderActiveDuringARun : Prop :=
  ∀ (s : State) (c : Instr) (code : Byte), Unheld s → s.loader.state = .running → (c, code) ∈ commandRows →
    c ≠ .tblRead → c ≠ .genStatus → c ≠ .ldrStatus →
      exec c s = .next (s.answered code .loaderActive [])

/-- R140, R142, R143, R147, R179, R180, R186: a write to CMD is the command its code names, and BAD_COMMAND where it
names none; every other offset has its own write, both strobes together are an ignored one, and with WCS# released there
is no access. A code that names no command is answered BAD_COMMAND even while the loader runs; a parameter byte is
stored; STATUS clears REFUSED and DATA_REJECT by their positions; a write that the window ignores changes nothing,
whatever its operands (log 3). Each finds the data-port access of an earlier access ended (R65, log 9). -/
def Obligations.WindowWritesActOnTheirOwnOffset : Prop :=
  (∀ (s : State) (v : Byte),
    (Unheld s → namesCommand v = false → exec (.badCommand v) s = .next (s.answered v .badCommand []))
    ∧ (Unheld s → ∀ i, exec (.parameterWrite i v) s = .next { windowBegun s with
        cmd := { s.cmd with params := s.cmd.params.set i v } })
    ∧ (s.pins.xrst = false → exec (.statusWrite v) s = .next { s with
        cmd := { s.cmd with refused := s.cmd.refused && !v.getLsbD 1 }
        mem := { (windowBegun s).mem with dataReject := s.mem.dataReject && !v.getLsbD 2 } })
    ∧ (s.pins.xrst = false → ∀ offset both, exec (.windowWriteIgnored offset v both) s = .next (windowBegun s)))
  ∧ (∀ v : Byte,
    (∀ c, (c, v) ∈ commandRows ↔ (windowWrite 0x00 v = c ∧ namesCommand v = true))
    ∧ (namesCommand v = false → windowWrite 0x00 v = .badCommand v)
    ∧ windowWrite 0x01 v = .statusWrite v ∧ windowWrite 0x03 v = .intPendWrite v ∧ windowWrite 0x04 v = .intEnWrite v
    ∧ windowWrite 0x05 v = .dataLoWrite v ∧ windowWrite 0x06 v = .dataHiWrite v
    ∧ (∀ i : Fin 16, windowWrite (BitVec.ofNat 5 (16 + i.val)) v = .parameterWrite i v)
    ∧ (∀ o : BitVec 5, o = 2 ∨ (7 ≤ o.toNat ∧ o.toNat ≤ 15) → windowWrite o v = .windowWriteIgnored o v false)
    ∧ ∀ o : BitVec 5, (∀ wrd wwr, windowAccess false wrd wwr o v = none)
        ∧ windowAccess true true true o v = some (.windowWriteIgnored o v true)
        ∧ windowAccess true false true o v = some (windowWrite o v) ∧ windowAccess true false false o v = none
        ∧ windowAccess true true false o v
            = if o = 5 then some .dataLoRead else if o = 6 then some .dataHiRead else none)

/-- R136, R137, R138: INT_EN is replaced by the byte written, whatever the unit, the loader or TRST# do, and INT_PEND
loses the causes the byte has set; no other command but the chip resets takes a cause out of the pending set; both read
back without effect; WINT is asserted exactly while the two sets share a cause; power-on and chip reset empty both. A
window write finds an earlier data-port access ended (R65, log 9). -/
def Obligations.CausesStayUntilTheyAreCleared : Prop :=
  ∀ (s : State) (v : Byte),
    (s.pins.xrst = false → exec (.intEnWrite v) s = .next { windowBegun s with irq := { s.irq with enable := v.setWidth 7 } })
    ∧ (s.pins.xrst = false → exec (.intPendWrite v) s = .next { windowBegun s with
        irq := { s.irq with pending := s.irq.pending &&& ~~~(v.setWidth 7) } })
    ∧ (∀ c t, exec c s = .next t → (∀ w, c ≠ .intPendWrite w) → (∀ l a f, c ≠ .powerOn l a f) →
        (∀ l, c ≠ .xrstRelease l) → c ≠ .xrstAssert → s.irq.pending &&& t.irq.pending = s.irq.pending)
    ∧ (∀ c t, exec c s = .next t → (∀ w, c ≠ .intEnWrite w) → (∀ l a f, c ≠ .powerOn l a f) →
        (∀ l, c ≠ .xrstRelease l) → c ≠ .xrstAssert → t.irq.enable = s.irq.enable)
    ∧ (s.pins.xrst = false → windowByte s 0x03 = s.irq.pending.setWidth 8 ∧ windowByte s 0x04 = s.irq.enable.setWidth 8)
    ∧ (wintAsserted s = true ↔ ∃ c : Cause, holdsCause s.irq.pending c = true ∧ holdsCause s.irq.enable c = true)
    ∧ (∀ l a f t, exec (.powerOn l a f) s = .next t → t.irq = { pending := 0, enable := 0 })
    ∧ (∀ t, s.pins.xrst = false → exec .xrstAssert s = .next t → t.irq = { pending := 0, enable := 0 })

/-- R40, R140: in chip reset no event but its own release, the end of power-on and the levels of TRST# and FREQ# changes
anything (log 3); a data-port read drives 00h, kept in `windowData` (log 10), and does no more. -/
def Obligations.InChipResetOnlyLevelsMove : Prop :=
  ∀ (s : State), s.pins.xrst = true →
    (∀ c, (∀ l a f, c ≠ .powerOn l a f) → (∀ l, c ≠ .xrstRelease l) → c ≠ .trstAssert → c ≠ .trstRelease →
      (∀ fa l k d fd, c ≠ .freqPresent fa l k d fd) → c ≠ .freqRelease → c ≠ .dataLoRead → c ≠ .dataHiRead →
        exec c s = .next s)
    ∧ exec .trstAssert s = .next { s with pins := { s.pins with trst := true } }
    ∧ exec .trstRelease s = .next { s with pins := { s.pins with trst := false } }
    ∧ exec .dataLoRead s = .next { s with windowData := some 0 }
    ∧ exec .dataHiRead s = .next { s with windowData := some 0 }
    ∧ ∀ o, windowByte s o = 0

/-- R57, R136, R137, R140, R142, R147, R179: what a read of each offset returns as it stands: the command register, the
STATUS bits, the result, the pending and the enable set, the data port's bytes, the parameter bytes, and 00h at an
unassigned offset. The byte of a data-port read is the one its command drives on WD, kept in `windowData` (log 10): the
low byte of the word at the pointer, or the high byte held, and FFh where the read is not served. -/
def Obligations.AWindowReadReturnsWhatStands : Prop :=
  ∀ s : State, s.pins.xrst = false →
    windowByte s 0x00 = s.cmd.command
    ∧ (windowByte s 0x01).getLsbD 0 = s.cmd.busy.isSome
    ∧ (windowByte s 0x01).getLsbD 1 = s.cmd.refused
    ∧ (windowByte s 0x01).getLsbD 2 = s.mem.dataReject
    ∧ (windowByte s 0x01).getLsbD 3 = decide (s.loader.state = .running)
    ∧ (windowByte s 0x01).toNat / 16 = s.gen.state.code
    ∧ windowByte s 0x02 = s.cmd.result.code
    ∧ windowByte s 0x03 = s.irq.pending.setWidth 8
    ∧ windowByte s 0x04 = s.irq.enable.setWidth 8
    ∧ (∃ t, exec .dataLoRead s = .next t ∧ t.windowData = some (windowByte s 0x05))
    ∧ (∃ t, exec .dataHiRead s = .next t ∧ t.windowData = some (windowByte s 0x06))
    ∧ (s.loader.state ≠ .running →
        (∀ p r, s.mem.pointer = some p → (s.segment p.handle).run = some r → p.offset < 32 * r.count →
          windowByte s 0x05 = Memory.read s.mem.ram (2 * (32 * r.first + p.offset)))
        ∧ ∀ b, s.mem.readLatch = some b → windowByte s 0x06 = b)
    ∧ (s.loader.state = .running ∨ s.mem.pointer = none
        ∨ (∃ p r, s.mem.pointer = some p ∧ (s.segment p.handle).run = some r ∧ 32 * r.count ≤ p.offset) →
      windowByte s 0x05 = 0xFF)
    ∧ (s.loader.state = .running ∨ s.mem.readLatch = none → windowByte s 0x06 = 0xFF)
    ∧ (∀ i : Fin 16, windowByte s (BitVec.ofNat 5 (16 + i.val)) = s.cmd.params[i])
    ∧ ∀ o : BitVec 5, 7 ≤ o.toNat → o.toNat ≤ 15 → windowByte s o = 0

/-! ### Loading an image -/

/-- R157, R158, R160, R169, R173, R174: the end of the zero-fill leaves every byte 00h and begins slot A, or ends the
run as NOT_ENABLED where LDEN was low; after its switch the loader's end event ends the run as LOADED, in the slot
current until then (log 14), with the trial its header asked for (log 15). Outside its phase, outside a run, and for the
end event while its commit is pending, neither is an event (log 3). R159: outside a transaction SSEL# is high and
nothing is sent; in one SSEL# is low, and SDO has carried 03h, the address highest byte first, and a zero for each data
byte clocked; SCK and SDO are low between steps (log 16). R155: HOLDOUT is asserted exactly while the loader is RUNNING
or the part is in chip reset. -/
def Obligations.ARunBeginsAndEnds : Prop :=
  (∀ s : State, s.pins.xrst = false →
    (s.loader.state = .running → s.loader.phase = .zeroFill →
      (s.loader.lden = true → exec .zeroFillEnd s = .next { s with
        mem := { s.mem with ram := [] }
        loader := { s.loader with slot := some .a, phase := .header, transaction := some 0x000000 } })
      ∧ (s.loader.lden = false → exec .zeroFillEnd s = .next { s with
        mem := { s.mem with ram := [] }
        loader := { s.loader with
          state := .done, phase := .none, slot := none
          outcome := { s.loader.outcome with overall := .notEnabled } }
        irq := { s.irq with pending := s.irq.pending ||| 0b0100000 } }))
    ∧ (s.loader.state = .running → s.loader.phase = .switchWait → (∀ c, s.gen.state ≠ .commitPending c) →
      exec .loaderRunEnd s = .next { s with
        loader := { s.loader with
          state := .done, phase := .none, slot := none
          outcome := { s.loader.outcome with
            overall := .loaded, slotUsed := s.loader.slot, committed := some 1, probation := s.loader.asksTrial } }
        irq := { s.irq with pending := s.irq.pending ||| 0b0100000 } })
    ∧ (s.loader.state ≠ .running ∨ s.loader.phase ≠ .switchWait ∨ (∃ c, s.gen.state = .commitPending c) →
      exec .loaderRunEnd s = .next s)
    ∧ (s.loader.state ≠ .running ∨ s.loader.phase ≠ .zeroFill → exec .zeroFillEnd s = .next s))
  ∧ (∀ s : State, (holdoutAsserted s = true ↔ s.loader.state = .running ∨ s.pins.xrst = true)
    ∧ (s.loader.transaction = none → spiLevels s = { ssel := true, sck := false, sdo := false } ∧ sdoBytes s = [])
    ∧ ∀ a, s.loader.transaction = some a → spiLevels s = { ssel := false, sck := false, sdo := false }
      ∧ (s.loader.header = none → sdoBytes s = [0x03, a.extractLsb' 16 8, a.extractLsb' 8 8, a.extractLsb' 0 8])
      ∧ (s.loader.header.isSome = true → sdoBytes s = [0x03, a.extractLsb' 16 8, a.extractLsb' 8 8, a.extractLsb' 0 8]
          ++ List.replicate (16 + s.loader.bodyRead) 0))

/-- R161 to R163, R185: a header with the mark, its own CRC-16, format 1 and every field in range begins the body; a
wrong mark is NO_IMAGE and any other failure HEADER_BAD, under record index 0. -/
def Obligations.TheHeaderIsCheckedInOrder : Prop :=
  ∀ (s : State) (b : Vector Byte 16) (x : Slot) (good : Prop), s.pins.xrst = false → s.loader.state = .running →
    s.loader.phase = .header → s.loader.slot = some x →
    (good ↔ crc16 [b[0], b[1], b[2], b[3], b[4], b[5], b[6], b[7], b[8], b[9], b[10], b[11], b[12], b[13]]
          = b[15] ++ b[14]
        ∧ b[2] = 1 ∧ b[4].toNat ≤ 7 ∧ 1 ≤ b[7].toNat ∧ b[7].toNat ≤ 96
        ∧ 1 ≤ b[8].toNat + 256 * b[9].toNat ∧ b[8].toNat + 256 * b[9].toNat ≤ 65520
        ∧ (b[3].getLsbD 0 = true → b[5].toNat + 256 * b[6].toNat ≠ 0)) →
    ((b[0] ≠ 0x36 ∨ b[1] ≠ 0x4F) → exec (.headerReceived b) s = .next (slotFailed s x .noImage 0))
    ∧ (b[0] = 0x36 → b[1] = 0x4F → ¬ good → exec (.headerReceived b) s = .next (slotFailed s x .headerBad 0))
    ∧ (b[0] = 0x36 → b[1] = 0x4F → good → exec (.headerReceived b) s = .next { s with
        loader := { s.loader with
          header := some
            { mark := 0x4F36, format := 1, flags := b[3], tolerance := b[4], probation := b[6] ++ b[5]
              recordCount := b[7], bodyLength := b[9] ++ b[8], bodyCrc := b[13] ++ b[12] ++ b[11] ++ b[10]
              headerCrc := b[15] ++ b[14] }
          bodyRead := 0, recordsTaken := 0, segmentMap := [], remainder := 0xFFFFFFFF, current := none
          phase := .records } })

/-- R164, R170 to R172: a type byte that names no record kind, or a body exhausted without END, fails the slot with
RECORD_BAD under the record's own index, and so does a record whose fixed part passes the end of the body. An exhausted
body is met at the next record event (log 24). -/
def Obligations.ABadRecordFailsTheSlot : Prop :=
  ∀ (s : State) (x : Slot) (h : ImageHeader) (left : Nat), AtRecord s x h →
    left = h.bodyLength.toNat - s.loader.bodyRead →
    (∀ ty : Byte, ty ∉ [1, 2, 3] ∨ left = 0 →
      exec (.unknownRecordType ty) s = .next (slotFailed s x .recordBad s.loader.recordsTaken))
    ∧ (left < 7 → ∀ l crc, exec (.segmentRecord l crc) s = .next (slotFailed s x .recordBad s.loader.recordsTaken))
    ∧ (left < 13 → ∀ base l k a n o v,
        exec (.entryRecord base l k a n o v) s = .next (slotFailed s x .recordBad s.loader.recordsTaken))
    ∧ (left < 1 → exec .endRecord s = .next (slotFailed s x .recordBad s.loader.recordsTaken))

/-- R164, R165: a SEGMENT record whose fixed part fits is checked for its words and its length; the loader then
allocates for the lowest handle by first fit, and awaits the words. -/
def Obligations.ASegmentRecordAllocatesItsSegment : Prop :=
  ∀ (s : State) (x : Slot) (hd : ImageHeader) (left : Nat) (l : Word) (crc : Crc32), AtRecord s x hd →
    left = hd.bodyLength.toNat - s.loader.bodyRead → 7 ≤ left →
    (left < 7 + 2 * l.toNat ∨ l = 0 ∨ 16384 < l.toNat →
      exec (.segmentRecord l crc) s = .next (slotFailed s x .recordBad s.loader.recordsTaken))
    ∧ (7 + 2 * l.toNat ≤ left → l ≠ 0 → l.toNat ≤ 16384 → ∀ k, k = (l.toNat + 31) / 32 →
      ((∀ h, s.segment h ≠ .free) ∨ (∀ g, ¬ RunIsFree s g k) →
        exec (.segmentRecord l crc) s = .next (slotFailed s x .noSpace s.loader.recordsTaken))
      ∧ ∀ h g, s.segment h = .free → (∀ j < h, s.segment j ≠ .free) → RunIsFree s g k →
          (∀ g' < g, ¬ RunIsFree s g' k) →
          exec (.segmentRecord l crc) s = .next { s with
            mem := s.mem.withSegment h (.opened { first := g, count := k })
            loader := { bytesRead s.loader (segmentFixedBytes l crc) with
              segmentMap := s.loader.segmentMap ++ [h]
              current := some { handle := h, length := l.toNat, expected := crc, written := 0 } } })

/-- R60, R63, R66, R166: each word of a SEGMENT record is written to its OPEN segment at the next offset; after the last
the loader waits for its seal, whose match completes the record and whose mismatch fails the slot with SEAL_CRC. It
raises no CMD_DONE. A SEGMENT_WORD brings both bytes of its word (log 25). The CRC read of the last word is
SEAL_COMPLETE (log 4). A word, and the CRC read, finds an earlier data-port access ended (R65, log 9). -/
def Obligations.ASegmentIsWrittenAndSealed : Prop :=
  ∀ (s : State) (r : Run), s.pins.xrst = false → s.loader.state = .running →
    (∀ (p : SegmentProgress) (w : Word), MemoryForm s → s.loader.phase = .records → s.loader.current = some p →
      s.segment p.handle = .opened r →
      ∃ ram, WordStored s.mem.ram ram r p.written w ∧ Memory.wf ram = true
        ∧ (p.written + 1 < p.length → exec (.segmentWord w) s = .next { s with
            mem := { s.mem with ram := ram, arbiter := s.mem.arbiter.idled.dataAsked }
            loader := { bytesRead s.loader [w.setWidth 8, (w >>> 8).setWidth 8] with
              current := some { p with written := p.written + 1 } } })
        ∧ (p.written + 1 = p.length → exec (.segmentWord w) s = .next { s with
            mem := { s.mem.withSegment p.handle (.sealing r p.length) with
              ram := ram
              crcJob := some
                { handle := p.handle, length := p.length, expected := p.expected, remainder := 0xFFFFFFFF
                  offset := 0, forLoader := true }
              arbiter := s.mem.arbiter.idled.dataAsked.asked }
            loader := { bytesRead s.loader [w.setWidth 8, (w >>> 8).setWidth 8] with
              current := some { p with written := p.written + 1 }, phase := .sealWait } }))
    ∧ (∀ (j : CrcJob) (x : Slot) (crc : Crc32), s.mem.arbiter.idled.serving = some .crcRead → s.mem.crcJob = some j →
      j.forLoader = true → s.loader.slot = some x → s.segment j.handle = .sealing r j.length →
      j.offset + 1 = j.length → crc = crc32Word j.remainder (wordAt s.mem.ram r j.offset) ^^^ 0xFFFFFFFF →
      ∀ c, c = .crcWordRead ∨ c = .sealComplete →
        (crc = j.expected → exec c s = .next { s with
          mem := { s.mem.withSegment j.handle (.sealed r { length := j.length, crc := crc, references := 0 }) with
            crcJob := none
            arbiter := s.mem.arbiter.idled.passed }
          loader := { s.loader with
            recordsTaken := s.loader.recordsTaken + 1, current := none, phase := .records } })
        ∧ (crc ≠ j.expected →
          exec c s = .next (slotFailed s x .sealCrc s.loader.recordsTaken)))

/-- R164, R167: an ENTRY record is inserted into STAGED as STG_INSERT is, a REPLACE entry through the segment map; an
ordinal or a field out of range is RECORD_BAD, a range past the sealed length or over a staged entry OVERLAP_OR_RANGE, a
full STAGED NO_SPACE. -/
def Obligations.AnEntryRecordStagesItsEntry : Prop :=
  ∀ (s : State) (x : Slot) (hd : ImageHeader) (base : BitVec 24) (l : Word) (k a n : Byte) (o v : Word)
    (outcome : State → Prop), AtRecord s x hd → s.loader.bodyRead + 13 ≤ hd.bodyLength.toNat →
    s.tables.stagedLock = false →
    (∀ t, outcome t ↔ exec (.entryRecord base l k a n o v) s = .next t) →
    ((∀ e, ¬ RecordAsks s.loader.segmentMap base l k a n o v e) →
      outcome (slotFailed s x .recordBad s.loader.recordsTaken))
    ∧ ∀ e, RecordAsks s.loader.segmentMap base l k a n o v e →
        (∀ h off r d, e.body = .replace h off → s.segment h = .sealed r d → d.length < off + e.length →
          outcome (slotFailed s x .overlapOrRange s.loader.recordsTaken))
        ∧ (SegmentReady s e →
          (32 ≤ s.tables.staged.length → outcome (slotFailed s x .noSpace s.loader.recordsTaken))
          ∧ (s.tables.staged.length < 32 → (∃ f ∈ s.tables.staged, SharesAddress e f) →
              outcome (slotFailed s x .overlapOrRange s.loader.recordsTaken))
          ∧ (s.tables.staged.length < 32 → (∀ f ∈ s.tables.staged, ¬ SharesAddress e f) → ∀ p mem,
              p = s.tables.staged.countP (fun f => decide (f.base.toNat < e.base.toNat)) →
              (e.segment? = none → mem = s.mem) →
              (∀ h r d, e.segment? = some h → s.segment h = .sealed r d →
                mem = s.mem.withSegment h (.sealed r { d with references := d.references + 1 })) →
                outcome { s with
                  tables := { s.tables with staged := s.tables.staged.take p ++ e :: s.tables.staged.drop p }
                  mem := mem
                  loader := { bytesRead s.loader
                      ([0x02, byte base.toNat, byte (base.toNat / 256), byte (base.toNat / 65536), byte l.toNat,
                        byte (l.toNat / 256), k, a, n, byte o.toNat, byte (o.toNat / 256), byte v.toNat,
                        byte (v.toNat / 256)]) with
                    recordsTaken := s.loader.recordsTaken + 1 } }))

/-- R164, R168, R169, R106: an END record is checked for the body's end, the record count and the body CRC, in that
order; when it passes, the slot is OK and stays the current one (log 14), the header is dropped (log 15), the
transaction ends and the header's NOW commit is made, which is switched at once where the port is idle with no
acceptance to take (log 2), and otherwise waits (log 1). -/
def Obligations.AnEndRecordCommitsTheImage : Prop :=
  ∀ (s : State) (x : Slot) (hd : ImageHeader) (read : Loader) (c : PendingCommit) (ended : State), AtRecord s x hd →
    s.loader.bodyRead + 1 ≤ hd.bodyLength.toNat → read = bytesRead s.loader [0x03] →
    c = (if hd.flags.getLsbD 0 then
        { mode := .now, probation := hd.probation, tolerance := Fin.ofNat 8 hd.tolerance.toNat }
      else { mode := .now, probation := 0, tolerance := 0 }) →
    ended = commitRecorded
      { s with loader := { read with
          header := none, segmentMap := [], recordsTaken := s.loader.recordsTaken + 1, phase := .switchWait
          asksTrial := decide (c.probation ≠ 0), transaction := none
          outcome := match x with
            | .a => { s.loader.outcome with slotA := { result := .ok, index := s.loader.recordsTaken } }
            | .b => { s.loader.outcome with slotB := { result := .ok, index := s.loader.recordsTaken } } } } c →
    (s.loader.bodyRead + 1 < hd.bodyLength.toNat →
      exec .endRecord s = .next (slotFailed s x .recordBad s.loader.recordsTaken))
    ∧ (s.loader.bodyRead + 1 = hd.bodyLength.toNat →
      (s.loader.recordsTaken + 1 ≠ hd.recordCount.toNat →
        exec .endRecord s = .next (slotFailed s x .countMismatch s.loader.recordsTaken))
      ∧ (s.loader.recordsTaken + 1 = hd.recordCount.toNat → read.remainder ^^^ 0xFFFFFFFF ≠ hd.bodyCrc →
        exec .endRecord s = .next (slotFailed s x .bodyCrc s.loader.recordsTaken))
      ∧ (s.loader.recordsTaken + 1 = hd.recordCount.toNat → read.remainder ^^^ 0xFFFFFFFF = hd.bodyCrc →
        (s.fetch.request.isSome = true ∨ ¬ NoAcceptance s → exec .endRecord s = .next ended)
        ∧ (s.fetch.request = none → NoAcceptance s → exec .endRecord s = .next (switchedState ended c
            (switchNumber s.gen.counter s.tables.live.generation)))))

/-! ### What every step keeps -/

/-- The form in which the model holds patch RAM (logs 7, 8), a list of bytes with rising addresses that lists no byte
that reads 00h, is kept by every step. -/
def Obligations.EveryStepKeepsTheMemoryForm : Prop :=
  ∀ s t : State, MemoryForm s → step s = .next t → MemoryForm t

/-- R1, R8, R9, R12: the three tables keep at most 32 entries, in range, ascending and disjoint, with STAGED's counts at
0; PRIOR's number differs from LIVE's, and generation 0 is empty. -/
def Obligations.EveryStepKeepsTheTables : Prop :=
  ∀ s t : State, TablesForm s.tables ∧ NumbersDiffer s.tables ∧ ZeroEmpty s.tables → step s = .next t →
    TablesForm t.tables ∧ NumbersDiffer t.tables ∧ ZeroEmpty t.tables

/-- R2, R51, R53: a segment's references are the REPLACE entries that name it, every such entry lies within a SEALED or
CONDEMNED segment, and a CONDEMNED segment has references above 0. -/
def Obligations.EveryStepKeepsTheReferences : Prop :=
  ∀ s t : State, ReferencesCounted s ∧ EntriesBacked s ∧ CondemnedNamed s → step s = .next t →
    ReferencesCounted t ∧ EntriesBacked t ∧ CondemnedNamed t

/-- R43, R44, R54: no granule has two owners, every run lies within patch RAM, and the data pointer stands on a non-FREE
segment at an offset up to its capacity. -/
def Obligations.EveryStepKeepsTheRunsAndThePointer : Prop :=
  ∀ s t : State, RunsForm s ∧ PointerForm s → step s = .next t → RunsForm t ∧ PointerForm t

/-- R128 to R130: the held records are at most 16, their numbers go round the circle without lapping, below the counter.
-/
def Obligations.EveryStepKeepsTheLog : Prop :=
  ∀ s t : State, s.log.form = true → step s = .next t → t.log.form = true

/-- R1, R2, R8, R9, R11 to R13, R21 to R28, R38, R35, R40 to R44, R51, R53, R54, R61, R62, R65, R66, R90, R94, R102,
R106, R108, R109, R129, R130, R146, R148, R154, R157, R160, R166, R171: everything the manual says always holds of the
part's state is kept by every step, whatever command the queue holds, and with it the model's own forms: the RAM list
(logs 7, 8), the data-port claim at the arbiter (log 9) and the latched table as LIVE (log 12). -/
def Obligations.EveryStepKeepsEveryForm : Prop :=
  ∀ s t : State, Inv s → step s = .next t → Inv t

end
end

