-- ==== Sys2Proof/Laws/State.lean ====
section
/-! SUPPORT. The field lemmas of the plain updates of State: one for each field that an update leaves, and one for
each field that it sets. All are true by `rfl`. -/

namespace Sys2Proof.Machine

variable (s : State)

/-! ### setSegment -/

@[simp] theorem State.setSegment_pins (h : Handle) (g : Segment) : (s.setSegment h g).pins = s.pins := rfl
@[simp] theorem State.setSegment_fetch (h : Handle) (g : Segment) : (s.setSegment h g).fetch = s.fetch := rfl
@[simp] theorem State.setSegment_tables (h : Handle) (g : Segment) : (s.setSegment h g).tables = s.tables := rfl
@[simp] theorem State.setSegment_gen (h : Handle) (g : Segment) : (s.setSegment h g).gen = s.gen := rfl
@[simp] theorem State.setSegment_log (h : Handle) (g : Segment) : (s.setSegment h g).log = s.log := rfl
@[simp] theorem State.setSegment_irq (h : Handle) (g : Segment) : (s.setSegment h g).irq = s.irq := rfl
@[simp] theorem State.setSegment_cmd (h : Handle) (g : Segment) : (s.setSegment h g).cmd = s.cmd := rfl
@[simp] theorem State.setSegment_loader (h : Handle) (g : Segment) : (s.setSegment h g).loader = s.loader := rfl
@[simp] theorem State.setSegment_divider (h : Handle) (g : Segment) : (s.setSegment h g).divider = s.divider := rfl
@[simp] theorem State.setSegment_windowData (h : Handle) (g : Segment) : (s.setSegment h g).windowData = s.windowData := rfl
@[simp] theorem State.setSegment_pending (h : Handle) (g : Segment) : (s.setSegment h g).pending = s.pending := rfl
@[simp] theorem State.setSegment_ram (h : Handle) (g : Segment) : (s.setSegment h g).mem.ram = s.mem.ram := rfl
@[simp] theorem State.setSegment_pointer (h : Handle) (g : Segment) : (s.setSegment h g).mem.pointer = s.mem.pointer := rfl
@[simp] theorem State.setSegment_writeLatch (h : Handle) (g : Segment) : (s.setSegment h g).mem.writeLatch = s.mem.writeLatch := rfl
@[simp] theorem State.setSegment_readLatch (h : Handle) (g : Segment) : (s.setSegment h g).mem.readLatch = s.mem.readLatch := rfl
@[simp] theorem State.setSegment_dataReject (h : Handle) (g : Segment) : (s.setSegment h g).mem.dataReject = s.mem.dataReject := rfl
@[simp] theorem State.setSegment_crcJob (h : Handle) (g : Segment) : (s.setSegment h g).mem.crcJob = s.mem.crcJob := rfl
@[simp] theorem State.setSegment_arbiter (h : Handle) (g : Segment) : (s.setSegment h g).mem.arbiter = s.mem.arbiter := rfl

/-! ### storeSegmentWord -/

@[simp] theorem State.storeSegmentWord_pins (h : Handle) (o : Nat) (w : Word) : (s.storeSegmentWord h o w).pins = s.pins := rfl
@[simp] theorem State.storeSegmentWord_fetch (h : Handle) (o : Nat) (w : Word) : (s.storeSegmentWord h o w).fetch = s.fetch := rfl
@[simp] theorem State.storeSegmentWord_tables (h : Handle) (o : Nat) (w : Word) : (s.storeSegmentWord h o w).tables = s.tables := rfl
@[simp] theorem State.storeSegmentWord_gen (h : Handle) (o : Nat) (w : Word) : (s.storeSegmentWord h o w).gen = s.gen := rfl
@[simp] theorem State.storeSegmentWord_log (h : Handle) (o : Nat) (w : Word) : (s.storeSegmentWord h o w).log = s.log := rfl
@[simp] theorem State.storeSegmentWord_irq (h : Handle) (o : Nat) (w : Word) : (s.storeSegmentWord h o w).irq = s.irq := rfl
@[simp] theorem State.storeSegmentWord_cmd (h : Handle) (o : Nat) (w : Word) : (s.storeSegmentWord h o w).cmd = s.cmd := rfl
@[simp] theorem State.storeSegmentWord_loader (h : Handle) (o : Nat) (w : Word) : (s.storeSegmentWord h o w).loader = s.loader := rfl
@[simp] theorem State.storeSegmentWord_divider (h : Handle) (o : Nat) (w : Word) : (s.storeSegmentWord h o w).divider = s.divider := rfl
@[simp] theorem State.storeSegmentWord_windowData (h : Handle) (o : Nat) (w : Word) : (s.storeSegmentWord h o w).windowData = s.windowData := rfl
@[simp] theorem State.storeSegmentWord_pending (h : Handle) (o : Nat) (w : Word) : (s.storeSegmentWord h o w).pending = s.pending := rfl
@[simp] theorem State.storeSegmentWord_segments (h : Handle) (o : Nat) (w : Word) : (s.storeSegmentWord h o w).mem.segments = s.mem.segments := rfl
@[simp] theorem State.storeSegmentWord_pointer (h : Handle) (o : Nat) (w : Word) : (s.storeSegmentWord h o w).mem.pointer = s.mem.pointer := rfl
@[simp] theorem State.storeSegmentWord_writeLatch (h : Handle) (o : Nat) (w : Word) : (s.storeSegmentWord h o w).mem.writeLatch = s.mem.writeLatch := rfl
@[simp] theorem State.storeSegmentWord_readLatch (h : Handle) (o : Nat) (w : Word) : (s.storeSegmentWord h o w).mem.readLatch = s.mem.readLatch := rfl
@[simp] theorem State.storeSegmentWord_dataReject (h : Handle) (o : Nat) (w : Word) : (s.storeSegmentWord h o w).mem.dataReject = s.mem.dataReject := rfl
@[simp] theorem State.storeSegmentWord_crcJob (h : Handle) (o : Nat) (w : Word) : (s.storeSegmentWord h o w).mem.crcJob = s.mem.crcJob := rfl
@[simp] theorem State.storeSegmentWord_arbiter (h : Handle) (o : Nat) (w : Word) : (s.storeSegmentWord h o w).mem.arbiter = s.mem.arbiter := rfl

/-! ### unsetPointer -/

@[simp] theorem State.unsetPointer_pins : (s.unsetPointer).pins = s.pins := rfl
@[simp] theorem State.unsetPointer_fetch : (s.unsetPointer).fetch = s.fetch := rfl
@[simp] theorem State.unsetPointer_tables : (s.unsetPointer).tables = s.tables := rfl
@[simp] theorem State.unsetPointer_gen : (s.unsetPointer).gen = s.gen := rfl
@[simp] theorem State.unsetPointer_log : (s.unsetPointer).log = s.log := rfl
@[simp] theorem State.unsetPointer_irq : (s.unsetPointer).irq = s.irq := rfl
@[simp] theorem State.unsetPointer_cmd : (s.unsetPointer).cmd = s.cmd := rfl
@[simp] theorem State.unsetPointer_loader : (s.unsetPointer).loader = s.loader := rfl
@[simp] theorem State.unsetPointer_divider : (s.unsetPointer).divider = s.divider := rfl
@[simp] theorem State.unsetPointer_windowData : (s.unsetPointer).windowData = s.windowData := rfl
@[simp] theorem State.unsetPointer_pending : (s.unsetPointer).pending = s.pending := rfl
@[simp] theorem State.unsetPointer_ram : (s.unsetPointer).mem.ram = s.mem.ram := rfl
@[simp] theorem State.unsetPointer_segments : (s.unsetPointer).mem.segments = s.mem.segments := rfl
@[simp] theorem State.unsetPointer_writeLatch : (s.unsetPointer).mem.writeLatch = s.mem.writeLatch := rfl
@[simp] theorem State.unsetPointer_dataReject : (s.unsetPointer).mem.dataReject = s.mem.dataReject := rfl
@[simp] theorem State.unsetPointer_crcJob : (s.unsetPointer).mem.crcJob = s.mem.crcJob := rfl
@[simp] theorem State.unsetPointer_arbiter : (s.unsetPointer).mem.arbiter = s.mem.arbiter := rfl

/-! ### setArbiter -/

@[simp] theorem State.setArbiter_pins (a : Arbiter) : (s.setArbiter a).pins = s.pins := rfl
@[simp] theorem State.setArbiter_fetch (a : Arbiter) : (s.setArbiter a).fetch = s.fetch := rfl
@[simp] theorem State.setArbiter_tables (a : Arbiter) : (s.setArbiter a).tables = s.tables := rfl
@[simp] theorem State.setArbiter_gen (a : Arbiter) : (s.setArbiter a).gen = s.gen := rfl
@[simp] theorem State.setArbiter_log (a : Arbiter) : (s.setArbiter a).log = s.log := rfl
@[simp] theorem State.setArbiter_irq (a : Arbiter) : (s.setArbiter a).irq = s.irq := rfl
@[simp] theorem State.setArbiter_cmd (a : Arbiter) : (s.setArbiter a).cmd = s.cmd := rfl
@[simp] theorem State.setArbiter_loader (a : Arbiter) : (s.setArbiter a).loader = s.loader := rfl
@[simp] theorem State.setArbiter_divider (a : Arbiter) : (s.setArbiter a).divider = s.divider := rfl
@[simp] theorem State.setArbiter_windowData (a : Arbiter) : (s.setArbiter a).windowData = s.windowData := rfl
@[simp] theorem State.setArbiter_pending (a : Arbiter) : (s.setArbiter a).pending = s.pending := rfl
@[simp] theorem State.setArbiter_ram (a : Arbiter) : (s.setArbiter a).mem.ram = s.mem.ram := rfl
@[simp] theorem State.setArbiter_segments (a : Arbiter) : (s.setArbiter a).mem.segments = s.mem.segments := rfl
@[simp] theorem State.setArbiter_pointer (a : Arbiter) : (s.setArbiter a).mem.pointer = s.mem.pointer := rfl
@[simp] theorem State.setArbiter_writeLatch (a : Arbiter) : (s.setArbiter a).mem.writeLatch = s.mem.writeLatch := rfl
@[simp] theorem State.setArbiter_readLatch (a : Arbiter) : (s.setArbiter a).mem.readLatch = s.mem.readLatch := rfl
@[simp] theorem State.setArbiter_dataReject (a : Arbiter) : (s.setArbiter a).mem.dataReject = s.mem.dataReject := rfl
@[simp] theorem State.setArbiter_crcJob (a : Arbiter) : (s.setArbiter a).mem.crcJob = s.mem.crcJob := rfl

/-! ### freePort -/

@[simp] theorem State.freePort_pins : (s.freePort).pins = s.pins := rfl
@[simp] theorem State.freePort_fetch : (s.freePort).fetch = s.fetch := rfl
@[simp] theorem State.freePort_tables : (s.freePort).tables = s.tables := rfl
@[simp] theorem State.freePort_gen : (s.freePort).gen = s.gen := rfl
@[simp] theorem State.freePort_log : (s.freePort).log = s.log := rfl
@[simp] theorem State.freePort_irq : (s.freePort).irq = s.irq := rfl
@[simp] theorem State.freePort_cmd : (s.freePort).cmd = s.cmd := rfl
@[simp] theorem State.freePort_loader : (s.freePort).loader = s.loader := rfl
@[simp] theorem State.freePort_divider : (s.freePort).divider = s.divider := rfl
@[simp] theorem State.freePort_windowData : (s.freePort).windowData = s.windowData := rfl
@[simp] theorem State.freePort_pending : (s.freePort).pending = s.pending := rfl
@[simp] theorem State.freePort_ram : (s.freePort).mem.ram = s.mem.ram := rfl
@[simp] theorem State.freePort_segments : (s.freePort).mem.segments = s.mem.segments := rfl
@[simp] theorem State.freePort_pointer : (s.freePort).mem.pointer = s.mem.pointer := rfl
@[simp] theorem State.freePort_writeLatch : (s.freePort).mem.writeLatch = s.mem.writeLatch := rfl
@[simp] theorem State.freePort_readLatch : (s.freePort).mem.readLatch = s.mem.readLatch := rfl
@[simp] theorem State.freePort_dataReject : (s.freePort).mem.dataReject = s.mem.dataReject := rfl
@[simp] theorem State.freePort_crcJob : (s.freePort).mem.crcJob = s.mem.crcJob := rfl

/-! ### dataEnded -/

@[simp] theorem State.dataEnded_pins : (s.dataEnded).pins = s.pins := rfl
@[simp] theorem State.dataEnded_fetch : (s.dataEnded).fetch = s.fetch := rfl
@[simp] theorem State.dataEnded_tables : (s.dataEnded).tables = s.tables := rfl
@[simp] theorem State.dataEnded_gen : (s.dataEnded).gen = s.gen := rfl
@[simp] theorem State.dataEnded_log : (s.dataEnded).log = s.log := rfl
@[simp] theorem State.dataEnded_irq : (s.dataEnded).irq = s.irq := rfl
@[simp] theorem State.dataEnded_cmd : (s.dataEnded).cmd = s.cmd := rfl
@[simp] theorem State.dataEnded_loader : (s.dataEnded).loader = s.loader := rfl
@[simp] theorem State.dataEnded_divider : (s.dataEnded).divider = s.divider := rfl
@[simp] theorem State.dataEnded_windowData : (s.dataEnded).windowData = s.windowData := rfl
@[simp] theorem State.dataEnded_pending : (s.dataEnded).pending = s.pending := rfl
@[simp] theorem State.dataEnded_ram : (s.dataEnded).mem.ram = s.mem.ram := rfl
@[simp] theorem State.dataEnded_segments : (s.dataEnded).mem.segments = s.mem.segments := rfl
@[simp] theorem State.dataEnded_pointer : (s.dataEnded).mem.pointer = s.mem.pointer := rfl
@[simp] theorem State.dataEnded_writeLatch : (s.dataEnded).mem.writeLatch = s.mem.writeLatch := rfl
@[simp] theorem State.dataEnded_readLatch : (s.dataEnded).mem.readLatch = s.mem.readLatch := rfl
@[simp] theorem State.dataEnded_dataReject : (s.dataEnded).mem.dataReject = s.mem.dataReject := rfl
@[simp] theorem State.dataEnded_crcJob : (s.dataEnded).mem.crcJob = s.mem.crcJob := rfl

/-! ### claimData -/

@[simp] theorem State.claimData_pins : (s.claimData).pins = s.pins := rfl
@[simp] theorem State.claimData_fetch : (s.claimData).fetch = s.fetch := rfl
@[simp] theorem State.claimData_tables : (s.claimData).tables = s.tables := rfl
@[simp] theorem State.claimData_gen : (s.claimData).gen = s.gen := rfl
@[simp] theorem State.claimData_log : (s.claimData).log = s.log := rfl
@[simp] theorem State.claimData_irq : (s.claimData).irq = s.irq := rfl
@[simp] theorem State.claimData_cmd : (s.claimData).cmd = s.cmd := rfl
@[simp] theorem State.claimData_loader : (s.claimData).loader = s.loader := rfl
@[simp] theorem State.claimData_divider : (s.claimData).divider = s.divider := rfl
@[simp] theorem State.claimData_windowData : (s.claimData).windowData = s.windowData := rfl
@[simp] theorem State.claimData_pending : (s.claimData).pending = s.pending := rfl
@[simp] theorem State.claimData_ram : (s.claimData).mem.ram = s.mem.ram := rfl
@[simp] theorem State.claimData_segments : (s.claimData).mem.segments = s.mem.segments := rfl
@[simp] theorem State.claimData_pointer : (s.claimData).mem.pointer = s.mem.pointer := rfl
@[simp] theorem State.claimData_writeLatch : (s.claimData).mem.writeLatch = s.mem.writeLatch := rfl
@[simp] theorem State.claimData_readLatch : (s.claimData).mem.readLatch = s.mem.readLatch := rfl
@[simp] theorem State.claimData_dataReject : (s.claimData).mem.dataReject = s.mem.dataReject := rfl
@[simp] theorem State.claimData_crcJob : (s.claimData).mem.crcJob = s.mem.crcJob := rfl

/-! ### rejectData -/

@[simp] theorem State.rejectData_pins : (s.rejectData).pins = s.pins := rfl
@[simp] theorem State.rejectData_fetch : (s.rejectData).fetch = s.fetch := rfl
@[simp] theorem State.rejectData_tables : (s.rejectData).tables = s.tables := rfl
@[simp] theorem State.rejectData_gen : (s.rejectData).gen = s.gen := rfl
@[simp] theorem State.rejectData_log : (s.rejectData).log = s.log := rfl
@[simp] theorem State.rejectData_irq : (s.rejectData).irq = s.irq := rfl
@[simp] theorem State.rejectData_cmd : (s.rejectData).cmd = s.cmd := rfl
@[simp] theorem State.rejectData_loader : (s.rejectData).loader = s.loader := rfl
@[simp] theorem State.rejectData_divider : (s.rejectData).divider = s.divider := rfl
@[simp] theorem State.rejectData_windowData : (s.rejectData).windowData = s.windowData := rfl
@[simp] theorem State.rejectData_pending : (s.rejectData).pending = s.pending := rfl
@[simp] theorem State.rejectData_ram : (s.rejectData).mem.ram = s.mem.ram := rfl
@[simp] theorem State.rejectData_segments : (s.rejectData).mem.segments = s.mem.segments := rfl
@[simp] theorem State.rejectData_pointer : (s.rejectData).mem.pointer = s.mem.pointer := rfl
@[simp] theorem State.rejectData_writeLatch : (s.rejectData).mem.writeLatch = s.mem.writeLatch := rfl
@[simp] theorem State.rejectData_readLatch : (s.rejectData).mem.readLatch = s.mem.readLatch := rfl
@[simp] theorem State.rejectData_crcJob : (s.rejectData).mem.crcJob = s.mem.crcJob := rfl
@[simp] theorem State.rejectData_arbiter : (s.rejectData).mem.arbiter = s.mem.arbiter := rfl

/-! ### setPointer -/

@[simp] theorem State.setPointer_pins (h : Handle) (o : Nat) : (s.setPointer h o).pins = s.pins := rfl
@[simp] theorem State.setPointer_fetch (h : Handle) (o : Nat) : (s.setPointer h o).fetch = s.fetch := rfl
@[simp] theorem State.setPointer_tables (h : Handle) (o : Nat) : (s.setPointer h o).tables = s.tables := rfl
@[simp] theorem State.setPointer_gen (h : Handle) (o : Nat) : (s.setPointer h o).gen = s.gen := rfl
@[simp] theorem State.setPointer_log (h : Handle) (o : Nat) : (s.setPointer h o).log = s.log := rfl
@[simp] theorem State.setPointer_irq (h : Handle) (o : Nat) : (s.setPointer h o).irq = s.irq := rfl
@[simp] theorem State.setPointer_cmd (h : Handle) (o : Nat) : (s.setPointer h o).cmd = s.cmd := rfl
@[simp] theorem State.setPointer_loader (h : Handle) (o : Nat) : (s.setPointer h o).loader = s.loader := rfl
@[simp] theorem State.setPointer_divider (h : Handle) (o : Nat) : (s.setPointer h o).divider = s.divider := rfl
@[simp] theorem State.setPointer_windowData (h : Handle) (o : Nat) : (s.setPointer h o).windowData = s.windowData := rfl
@[simp] theorem State.setPointer_pending (h : Handle) (o : Nat) : (s.setPointer h o).pending = s.pending := rfl
@[simp] theorem State.setPointer_ram (h : Handle) (o : Nat) : (s.setPointer h o).mem.ram = s.mem.ram := rfl
@[simp] theorem State.setPointer_segments (h : Handle) (o : Nat) : (s.setPointer h o).mem.segments = s.mem.segments := rfl
@[simp] theorem State.setPointer_writeLatch (h : Handle) (o : Nat) : (s.setPointer h o).mem.writeLatch = s.mem.writeLatch := rfl
@[simp] theorem State.setPointer_dataReject (h : Handle) (o : Nat) : (s.setPointer h o).mem.dataReject = s.mem.dataReject := rfl
@[simp] theorem State.setPointer_crcJob (h : Handle) (o : Nat) : (s.setPointer h o).mem.crcJob = s.mem.crcJob := rfl
@[simp] theorem State.setPointer_arbiter (h : Handle) (o : Nat) : (s.setPointer h o).mem.arbiter = s.mem.arbiter := rfl

/-! ### movePointer -/

@[simp] theorem State.movePointer_pins (p : DataPointer) (o : Nat) : (s.movePointer p o).pins = s.pins := rfl
@[simp] theorem State.movePointer_fetch (p : DataPointer) (o : Nat) : (s.movePointer p o).fetch = s.fetch := rfl
@[simp] theorem State.movePointer_tables (p : DataPointer) (o : Nat) : (s.movePointer p o).tables = s.tables := rfl
@[simp] theorem State.movePointer_gen (p : DataPointer) (o : Nat) : (s.movePointer p o).gen = s.gen := rfl
@[simp] theorem State.movePointer_log (p : DataPointer) (o : Nat) : (s.movePointer p o).log = s.log := rfl
@[simp] theorem State.movePointer_irq (p : DataPointer) (o : Nat) : (s.movePointer p o).irq = s.irq := rfl
@[simp] theorem State.movePointer_cmd (p : DataPointer) (o : Nat) : (s.movePointer p o).cmd = s.cmd := rfl
@[simp] theorem State.movePointer_loader (p : DataPointer) (o : Nat) : (s.movePointer p o).loader = s.loader := rfl
@[simp] theorem State.movePointer_divider (p : DataPointer) (o : Nat) : (s.movePointer p o).divider = s.divider := rfl
@[simp] theorem State.movePointer_windowData (p : DataPointer) (o : Nat) : (s.movePointer p o).windowData = s.windowData := rfl
@[simp] theorem State.movePointer_pending (p : DataPointer) (o : Nat) : (s.movePointer p o).pending = s.pending := rfl
@[simp] theorem State.movePointer_ram (p : DataPointer) (o : Nat) : (s.movePointer p o).mem.ram = s.mem.ram := rfl
@[simp] theorem State.movePointer_segments (p : DataPointer) (o : Nat) : (s.movePointer p o).mem.segments = s.mem.segments := rfl
@[simp] theorem State.movePointer_writeLatch (p : DataPointer) (o : Nat) : (s.movePointer p o).mem.writeLatch = s.mem.writeLatch := rfl
@[simp] theorem State.movePointer_readLatch (p : DataPointer) (o : Nat) : (s.movePointer p o).mem.readLatch = s.mem.readLatch := rfl
@[simp] theorem State.movePointer_dataReject (p : DataPointer) (o : Nat) : (s.movePointer p o).mem.dataReject = s.mem.dataReject := rfl
@[simp] theorem State.movePointer_crcJob (p : DataPointer) (o : Nat) : (s.movePointer p o).mem.crcJob = s.mem.crcJob := rfl
@[simp] theorem State.movePointer_arbiter (p : DataPointer) (o : Nat) : (s.movePointer p o).mem.arbiter = s.mem.arbiter := rfl

/-! ### setReadLatch -/

@[simp] theorem State.setReadLatch_pins (b : Option Byte) : (s.setReadLatch b).pins = s.pins := rfl
@[simp] theorem State.setReadLatch_fetch (b : Option Byte) : (s.setReadLatch b).fetch = s.fetch := rfl
@[simp] theorem State.setReadLatch_tables (b : Option Byte) : (s.setReadLatch b).tables = s.tables := rfl
@[simp] theorem State.setReadLatch_gen (b : Option Byte) : (s.setReadLatch b).gen = s.gen := rfl
@[simp] theorem State.setReadLatch_log (b : Option Byte) : (s.setReadLatch b).log = s.log := rfl
@[simp] theorem State.setReadLatch_irq (b : Option Byte) : (s.setReadLatch b).irq = s.irq := rfl
@[simp] theorem State.setReadLatch_cmd (b : Option Byte) : (s.setReadLatch b).cmd = s.cmd := rfl
@[simp] theorem State.setReadLatch_loader (b : Option Byte) : (s.setReadLatch b).loader = s.loader := rfl
@[simp] theorem State.setReadLatch_divider (b : Option Byte) : (s.setReadLatch b).divider = s.divider := rfl
@[simp] theorem State.setReadLatch_windowData (b : Option Byte) : (s.setReadLatch b).windowData = s.windowData := rfl
@[simp] theorem State.setReadLatch_pending (b : Option Byte) : (s.setReadLatch b).pending = s.pending := rfl
@[simp] theorem State.setReadLatch_ram (b : Option Byte) : (s.setReadLatch b).mem.ram = s.mem.ram := rfl
@[simp] theorem State.setReadLatch_segments (b : Option Byte) : (s.setReadLatch b).mem.segments = s.mem.segments := rfl
@[simp] theorem State.setReadLatch_pointer (b : Option Byte) : (s.setReadLatch b).mem.pointer = s.mem.pointer := rfl
@[simp] theorem State.setReadLatch_writeLatch (b : Option Byte) : (s.setReadLatch b).mem.writeLatch = s.mem.writeLatch := rfl
@[simp] theorem State.setReadLatch_dataReject (b : Option Byte) : (s.setReadLatch b).mem.dataReject = s.mem.dataReject := rfl
@[simp] theorem State.setReadLatch_crcJob (b : Option Byte) : (s.setReadLatch b).mem.crcJob = s.mem.crcJob := rfl
@[simp] theorem State.setReadLatch_arbiter (b : Option Byte) : (s.setReadLatch b).mem.arbiter = s.mem.arbiter := rfl

/-! ### writeDataLo -/

@[simp] theorem State.writeDataLo_pins (v : Byte) : (s.writeDataLo v).pins = s.pins := rfl
@[simp] theorem State.writeDataLo_fetch (v : Byte) : (s.writeDataLo v).fetch = s.fetch := rfl
@[simp] theorem State.writeDataLo_tables (v : Byte) : (s.writeDataLo v).tables = s.tables := rfl
@[simp] theorem State.writeDataLo_gen (v : Byte) : (s.writeDataLo v).gen = s.gen := rfl
@[simp] theorem State.writeDataLo_log (v : Byte) : (s.writeDataLo v).log = s.log := rfl
@[simp] theorem State.writeDataLo_irq (v : Byte) : (s.writeDataLo v).irq = s.irq := rfl
@[simp] theorem State.writeDataLo_cmd (v : Byte) : (s.writeDataLo v).cmd = s.cmd := rfl
@[simp] theorem State.writeDataLo_loader (v : Byte) : (s.writeDataLo v).loader = s.loader := rfl
@[simp] theorem State.writeDataLo_divider (v : Byte) : (s.writeDataLo v).divider = s.divider := rfl
@[simp] theorem State.writeDataLo_windowData (v : Byte) : (s.writeDataLo v).windowData = s.windowData := rfl
@[simp] theorem State.writeDataLo_pending (v : Byte) : (s.writeDataLo v).pending = s.pending := rfl
@[simp] theorem State.writeDataLo_ram (v : Byte) : (s.writeDataLo v).mem.ram = s.mem.ram := rfl
@[simp] theorem State.writeDataLo_segments (v : Byte) : (s.writeDataLo v).mem.segments = s.mem.segments := rfl
@[simp] theorem State.writeDataLo_pointer (v : Byte) : (s.writeDataLo v).mem.pointer = s.mem.pointer := rfl
@[simp] theorem State.writeDataLo_readLatch (v : Byte) : (s.writeDataLo v).mem.readLatch = s.mem.readLatch := rfl
@[simp] theorem State.writeDataLo_dataReject (v : Byte) : (s.writeDataLo v).mem.dataReject = s.mem.dataReject := rfl
@[simp] theorem State.writeDataLo_crcJob (v : Byte) : (s.writeDataLo v).mem.crcJob = s.mem.crcJob := rfl
@[simp] theorem State.writeDataLo_arbiter (v : Byte) : (s.writeDataLo v).mem.arbiter = s.mem.arbiter := rfl

/-! ### zeroFill -/

@[simp] theorem State.zeroFill_pins : (s.zeroFill).pins = s.pins := rfl
@[simp] theorem State.zeroFill_fetch : (s.zeroFill).fetch = s.fetch := rfl
@[simp] theorem State.zeroFill_tables : (s.zeroFill).tables = s.tables := rfl
@[simp] theorem State.zeroFill_gen : (s.zeroFill).gen = s.gen := rfl
@[simp] theorem State.zeroFill_log : (s.zeroFill).log = s.log := rfl
@[simp] theorem State.zeroFill_irq : (s.zeroFill).irq = s.irq := rfl
@[simp] theorem State.zeroFill_cmd : (s.zeroFill).cmd = s.cmd := rfl
@[simp] theorem State.zeroFill_loader : (s.zeroFill).loader = s.loader := rfl
@[simp] theorem State.zeroFill_divider : (s.zeroFill).divider = s.divider := rfl
@[simp] theorem State.zeroFill_windowData : (s.zeroFill).windowData = s.windowData := rfl
@[simp] theorem State.zeroFill_pending : (s.zeroFill).pending = s.pending := rfl
@[simp] theorem State.zeroFill_segments : (s.zeroFill).mem.segments = s.mem.segments := rfl
@[simp] theorem State.zeroFill_pointer : (s.zeroFill).mem.pointer = s.mem.pointer := rfl
@[simp] theorem State.zeroFill_writeLatch : (s.zeroFill).mem.writeLatch = s.mem.writeLatch := rfl
@[simp] theorem State.zeroFill_readLatch : (s.zeroFill).mem.readLatch = s.mem.readLatch := rfl
@[simp] theorem State.zeroFill_dataReject : (s.zeroFill).mem.dataReject = s.mem.dataReject := rfl
@[simp] theorem State.zeroFill_crcJob : (s.zeroFill).mem.crcJob = s.mem.crcJob := rfl
@[simp] theorem State.zeroFill_arbiter : (s.zeroFill).mem.arbiter = s.mem.arbiter := rfl

/-! ### startSeal -/

@[simp] theorem State.startSeal_pins (h : Handle) (r : Run) (n : Nat) (e : Crc32) (b : Bool) : (s.startSeal h r n e b).pins = s.pins := rfl
@[simp] theorem State.startSeal_fetch (h : Handle) (r : Run) (n : Nat) (e : Crc32) (b : Bool) : (s.startSeal h r n e b).fetch = s.fetch := rfl
@[simp] theorem State.startSeal_tables (h : Handle) (r : Run) (n : Nat) (e : Crc32) (b : Bool) : (s.startSeal h r n e b).tables = s.tables := rfl
@[simp] theorem State.startSeal_gen (h : Handle) (r : Run) (n : Nat) (e : Crc32) (b : Bool) : (s.startSeal h r n e b).gen = s.gen := rfl
@[simp] theorem State.startSeal_log (h : Handle) (r : Run) (n : Nat) (e : Crc32) (b : Bool) : (s.startSeal h r n e b).log = s.log := rfl
@[simp] theorem State.startSeal_irq (h : Handle) (r : Run) (n : Nat) (e : Crc32) (b : Bool) : (s.startSeal h r n e b).irq = s.irq := rfl
@[simp] theorem State.startSeal_cmd (h : Handle) (r : Run) (n : Nat) (e : Crc32) (b : Bool) : (s.startSeal h r n e b).cmd = s.cmd := rfl
@[simp] theorem State.startSeal_loader (h : Handle) (r : Run) (n : Nat) (e : Crc32) (b : Bool) : (s.startSeal h r n e b).loader = s.loader := rfl
@[simp] theorem State.startSeal_divider (h : Handle) (r : Run) (n : Nat) (e : Crc32) (b : Bool) : (s.startSeal h r n e b).divider = s.divider := rfl
@[simp] theorem State.startSeal_windowData (h : Handle) (r : Run) (n : Nat) (e : Crc32) (b : Bool) : (s.startSeal h r n e b).windowData = s.windowData := rfl
@[simp] theorem State.startSeal_pending (h : Handle) (r : Run) (n : Nat) (e : Crc32) (b : Bool) : (s.startSeal h r n e b).pending = s.pending := rfl
@[simp] theorem State.startSeal_ram (h : Handle) (r : Run) (n : Nat) (e : Crc32) (b : Bool) : (s.startSeal h r n e b).mem.ram = s.mem.ram := rfl
@[simp] theorem State.startSeal_pointer (h : Handle) (r : Run) (n : Nat) (e : Crc32) (b : Bool) : (s.startSeal h r n e b).mem.pointer = s.mem.pointer := rfl
@[simp] theorem State.startSeal_writeLatch (h : Handle) (r : Run) (n : Nat) (e : Crc32) (b : Bool) : (s.startSeal h r n e b).mem.writeLatch = s.mem.writeLatch := rfl
@[simp] theorem State.startSeal_readLatch (h : Handle) (r : Run) (n : Nat) (e : Crc32) (b : Bool) : (s.startSeal h r n e b).mem.readLatch = s.mem.readLatch := rfl
@[simp] theorem State.startSeal_dataReject (h : Handle) (r : Run) (n : Nat) (e : Crc32) (b : Bool) : (s.startSeal h r n e b).mem.dataReject = s.mem.dataReject := rfl

/-! ### raise -/

@[simp] theorem State.raise_pins (c : Cause) : (s.raise c).pins = s.pins := rfl
@[simp] theorem State.raise_fetch (c : Cause) : (s.raise c).fetch = s.fetch := rfl
@[simp] theorem State.raise_mem (c : Cause) : (s.raise c).mem = s.mem := rfl
@[simp] theorem State.raise_tables (c : Cause) : (s.raise c).tables = s.tables := rfl
@[simp] theorem State.raise_gen (c : Cause) : (s.raise c).gen = s.gen := rfl
@[simp] theorem State.raise_log (c : Cause) : (s.raise c).log = s.log := rfl
@[simp] theorem State.raise_cmd (c : Cause) : (s.raise c).cmd = s.cmd := rfl
@[simp] theorem State.raise_loader (c : Cause) : (s.raise c).loader = s.loader := rfl
@[simp] theorem State.raise_divider (c : Cause) : (s.raise c).divider = s.divider := rfl
@[simp] theorem State.raise_windowData (c : Cause) : (s.raise c).windowData = s.windowData := rfl
@[simp] theorem State.raise_pending (c : Cause) : (s.raise c).pending = s.pending := rfl

/-! ### writeIntPend -/

@[simp] theorem State.writeIntPend_pins (v : Byte) : (s.writeIntPend v).pins = s.pins := rfl
@[simp] theorem State.writeIntPend_fetch (v : Byte) : (s.writeIntPend v).fetch = s.fetch := rfl
@[simp] theorem State.writeIntPend_mem (v : Byte) : (s.writeIntPend v).mem = s.mem := rfl
@[simp] theorem State.writeIntPend_tables (v : Byte) : (s.writeIntPend v).tables = s.tables := rfl
@[simp] theorem State.writeIntPend_gen (v : Byte) : (s.writeIntPend v).gen = s.gen := rfl
@[simp] theorem State.writeIntPend_log (v : Byte) : (s.writeIntPend v).log = s.log := rfl
@[simp] theorem State.writeIntPend_cmd (v : Byte) : (s.writeIntPend v).cmd = s.cmd := rfl
@[simp] theorem State.writeIntPend_loader (v : Byte) : (s.writeIntPend v).loader = s.loader := rfl
@[simp] theorem State.writeIntPend_divider (v : Byte) : (s.writeIntPend v).divider = s.divider := rfl
@[simp] theorem State.writeIntPend_windowData (v : Byte) : (s.writeIntPend v).windowData = s.windowData := rfl
@[simp] theorem State.writeIntPend_pending (v : Byte) : (s.writeIntPend v).pending = s.pending := rfl

/-! ### writeIntEn -/

@[simp] theorem State.writeIntEn_pins (v : Byte) : (s.writeIntEn v).pins = s.pins := rfl
@[simp] theorem State.writeIntEn_fetch (v : Byte) : (s.writeIntEn v).fetch = s.fetch := rfl
@[simp] theorem State.writeIntEn_mem (v : Byte) : (s.writeIntEn v).mem = s.mem := rfl
@[simp] theorem State.writeIntEn_tables (v : Byte) : (s.writeIntEn v).tables = s.tables := rfl
@[simp] theorem State.writeIntEn_gen (v : Byte) : (s.writeIntEn v).gen = s.gen := rfl
@[simp] theorem State.writeIntEn_log (v : Byte) : (s.writeIntEn v).log = s.log := rfl
@[simp] theorem State.writeIntEn_cmd (v : Byte) : (s.writeIntEn v).cmd = s.cmd := rfl
@[simp] theorem State.writeIntEn_loader (v : Byte) : (s.writeIntEn v).loader = s.loader := rfl
@[simp] theorem State.writeIntEn_divider (v : Byte) : (s.writeIntEn v).divider = s.divider := rfl
@[simp] theorem State.writeIntEn_windowData (v : Byte) : (s.writeIntEn v).windowData = s.windowData := rfl
@[simp] theorem State.writeIntEn_pending (v : Byte) : (s.writeIntEn v).pending = s.pending := rfl

/-! ### answer -/

@[simp] theorem State.answer_pins (c : ResultCode) (bs : List Byte) : (s.answer c bs).pins = s.pins := rfl
@[simp] theorem State.answer_fetch (c : ResultCode) (bs : List Byte) : (s.answer c bs).fetch = s.fetch := rfl
@[simp] theorem State.answer_mem (c : ResultCode) (bs : List Byte) : (s.answer c bs).mem = s.mem := rfl
@[simp] theorem State.answer_tables (c : ResultCode) (bs : List Byte) : (s.answer c bs).tables = s.tables := rfl
@[simp] theorem State.answer_gen (c : ResultCode) (bs : List Byte) : (s.answer c bs).gen = s.gen := rfl
@[simp] theorem State.answer_log (c : ResultCode) (bs : List Byte) : (s.answer c bs).log = s.log := rfl
@[simp] theorem State.answer_irq (c : ResultCode) (bs : List Byte) : (s.answer c bs).irq = s.irq := rfl
@[simp] theorem State.answer_loader (c : ResultCode) (bs : List Byte) : (s.answer c bs).loader = s.loader := rfl
@[simp] theorem State.answer_divider (c : ResultCode) (bs : List Byte) : (s.answer c bs).divider = s.divider := rfl
@[simp] theorem State.answer_windowData (c : ResultCode) (bs : List Byte) : (s.answer c bs).windowData = s.windowData := rfl
@[simp] theorem State.answer_pending (c : ResultCode) (bs : List Byte) : (s.answer c bs).pending = s.pending := rfl

/-! ### hold -/

@[simp] theorem State.hold_pins (k : HeldCommand) : (s.hold k).pins = s.pins := rfl
@[simp] theorem State.hold_fetch (k : HeldCommand) : (s.hold k).fetch = s.fetch := rfl
@[simp] theorem State.hold_mem (k : HeldCommand) : (s.hold k).mem = s.mem := rfl
@[simp] theorem State.hold_tables (k : HeldCommand) : (s.hold k).tables = s.tables := rfl
@[simp] theorem State.hold_gen (k : HeldCommand) : (s.hold k).gen = s.gen := rfl
@[simp] theorem State.hold_log (k : HeldCommand) : (s.hold k).log = s.log := rfl
@[simp] theorem State.hold_irq (k : HeldCommand) : (s.hold k).irq = s.irq := rfl
@[simp] theorem State.hold_loader (k : HeldCommand) : (s.hold k).loader = s.loader := rfl
@[simp] theorem State.hold_divider (k : HeldCommand) : (s.hold k).divider = s.divider := rfl
@[simp] theorem State.hold_windowData (k : HeldCommand) : (s.hold k).windowData = s.windowData := rfl
@[simp] theorem State.hold_pending (k : HeldCommand) : (s.hold k).pending = s.pending := rfl

/-! ### release -/

@[simp] theorem State.release_pins (c : ResultCode) (bs : List Byte) : (s.release c bs).pins = s.pins := rfl
@[simp] theorem State.release_fetch (c : ResultCode) (bs : List Byte) : (s.release c bs).fetch = s.fetch := rfl
@[simp] theorem State.release_mem (c : ResultCode) (bs : List Byte) : (s.release c bs).mem = s.mem := rfl
@[simp] theorem State.release_tables (c : ResultCode) (bs : List Byte) : (s.release c bs).tables = s.tables := rfl
@[simp] theorem State.release_gen (c : ResultCode) (bs : List Byte) : (s.release c bs).gen = s.gen := rfl
@[simp] theorem State.release_log (c : ResultCode) (bs : List Byte) : (s.release c bs).log = s.log := rfl
@[simp] theorem State.release_irq (c : ResultCode) (bs : List Byte) : (s.release c bs).irq = s.irq := rfl
@[simp] theorem State.release_loader (c : ResultCode) (bs : List Byte) : (s.release c bs).loader = s.loader := rfl
@[simp] theorem State.release_divider (c : ResultCode) (bs : List Byte) : (s.release c bs).divider = s.divider := rfl
@[simp] theorem State.release_windowData (c : ResultCode) (bs : List Byte) : (s.release c bs).windowData = s.windowData := rfl
@[simp] theorem State.release_pending (c : ResultCode) (bs : List Byte) : (s.release c bs).pending = s.pending := rfl

/-! ### setCommand -/

@[simp] theorem State.setCommand_pins (v : Byte) : (s.setCommand v).pins = s.pins := rfl
@[simp] theorem State.setCommand_fetch (v : Byte) : (s.setCommand v).fetch = s.fetch := rfl
@[simp] theorem State.setCommand_mem (v : Byte) : (s.setCommand v).mem = s.mem := rfl
@[simp] theorem State.setCommand_tables (v : Byte) : (s.setCommand v).tables = s.tables := rfl
@[simp] theorem State.setCommand_gen (v : Byte) : (s.setCommand v).gen = s.gen := rfl
@[simp] theorem State.setCommand_log (v : Byte) : (s.setCommand v).log = s.log := rfl
@[simp] theorem State.setCommand_irq (v : Byte) : (s.setCommand v).irq = s.irq := rfl
@[simp] theorem State.setCommand_loader (v : Byte) : (s.setCommand v).loader = s.loader := rfl
@[simp] theorem State.setCommand_divider (v : Byte) : (s.setCommand v).divider = s.divider := rfl
@[simp] theorem State.setCommand_windowData (v : Byte) : (s.setCommand v).windowData = s.windowData := rfl
@[simp] theorem State.setCommand_pending (v : Byte) : (s.setCommand v).pending = s.pending := rfl

/-! ### refuse -/

@[simp] theorem State.refuse_pins : (s.refuse).pins = s.pins := rfl
@[simp] theorem State.refuse_fetch : (s.refuse).fetch = s.fetch := rfl
@[simp] theorem State.refuse_mem : (s.refuse).mem = s.mem := rfl
@[simp] theorem State.refuse_tables : (s.refuse).tables = s.tables := rfl
@[simp] theorem State.refuse_gen : (s.refuse).gen = s.gen := rfl
@[simp] theorem State.refuse_log : (s.refuse).log = s.log := rfl
@[simp] theorem State.refuse_loader : (s.refuse).loader = s.loader := rfl
@[simp] theorem State.refuse_divider : (s.refuse).divider = s.divider := rfl
@[simp] theorem State.refuse_windowData : (s.refuse).windowData = s.windowData := rfl
@[simp] theorem State.refuse_pending : (s.refuse).pending = s.pending := rfl

/-! ### refuseConfirm -/

@[simp] theorem State.refuseConfirm_pins : (s.refuseConfirm).pins = s.pins := rfl
@[simp] theorem State.refuseConfirm_fetch : (s.refuseConfirm).fetch = s.fetch := rfl
@[simp] theorem State.refuseConfirm_mem : (s.refuseConfirm).mem = s.mem := rfl
@[simp] theorem State.refuseConfirm_tables : (s.refuseConfirm).tables = s.tables := rfl
@[simp] theorem State.refuseConfirm_gen : (s.refuseConfirm).gen = s.gen := rfl
@[simp] theorem State.refuseConfirm_log : (s.refuseConfirm).log = s.log := rfl
@[simp] theorem State.refuseConfirm_irq : (s.refuseConfirm).irq = s.irq := rfl
@[simp] theorem State.refuseConfirm_loader : (s.refuseConfirm).loader = s.loader := rfl
@[simp] theorem State.refuseConfirm_divider : (s.refuseConfirm).divider = s.divider := rfl
@[simp] theorem State.refuseConfirm_windowData : (s.refuseConfirm).windowData = s.windowData := rfl
@[simp] theorem State.refuseConfirm_pending : (s.refuseConfirm).pending = s.pending := rfl

/-! ### refuseRemove -/

@[simp] theorem State.refuseRemove_pins (c : ResultCode) : (s.refuseRemove c).pins = s.pins := rfl
@[simp] theorem State.refuseRemove_fetch (c : ResultCode) : (s.refuseRemove c).fetch = s.fetch := rfl
@[simp] theorem State.refuseRemove_mem (c : ResultCode) : (s.refuseRemove c).mem = s.mem := rfl
@[simp] theorem State.refuseRemove_tables (c : ResultCode) : (s.refuseRemove c).tables = s.tables := rfl
@[simp] theorem State.refuseRemove_gen (c : ResultCode) : (s.refuseRemove c).gen = s.gen := rfl
@[simp] theorem State.refuseRemove_log (c : ResultCode) : (s.refuseRemove c).log = s.log := rfl
@[simp] theorem State.refuseRemove_irq (c : ResultCode) : (s.refuseRemove c).irq = s.irq := rfl
@[simp] theorem State.refuseRemove_loader (c : ResultCode) : (s.refuseRemove c).loader = s.loader := rfl
@[simp] theorem State.refuseRemove_divider (c : ResultCode) : (s.refuseRemove c).divider = s.divider := rfl
@[simp] theorem State.refuseRemove_windowData (c : ResultCode) : (s.refuseRemove c).windowData = s.windowData := rfl
@[simp] theorem State.refuseRemove_pending (c : ResultCode) : (s.refuseRemove c).pending = s.pending := rfl

/-! ### writeStatus -/

@[simp] theorem State.writeStatus_pins (v : Byte) : (s.writeStatus v).pins = s.pins := rfl
@[simp] theorem State.writeStatus_fetch (v : Byte) : (s.writeStatus v).fetch = s.fetch := rfl
@[simp] theorem State.writeStatus_tables (v : Byte) : (s.writeStatus v).tables = s.tables := rfl
@[simp] theorem State.writeStatus_gen (v : Byte) : (s.writeStatus v).gen = s.gen := rfl
@[simp] theorem State.writeStatus_log (v : Byte) : (s.writeStatus v).log = s.log := rfl
@[simp] theorem State.writeStatus_irq (v : Byte) : (s.writeStatus v).irq = s.irq := rfl
@[simp] theorem State.writeStatus_loader (v : Byte) : (s.writeStatus v).loader = s.loader := rfl
@[simp] theorem State.writeStatus_divider (v : Byte) : (s.writeStatus v).divider = s.divider := rfl
@[simp] theorem State.writeStatus_windowData (v : Byte) : (s.writeStatus v).windowData = s.windowData := rfl
@[simp] theorem State.writeStatus_pending (v : Byte) : (s.writeStatus v).pending = s.pending := rfl
@[simp] theorem State.writeStatus_ram (v : Byte) : (s.writeStatus v).mem.ram = s.mem.ram := rfl
@[simp] theorem State.writeStatus_segments (v : Byte) : (s.writeStatus v).mem.segments = s.mem.segments := rfl
@[simp] theorem State.writeStatus_pointer (v : Byte) : (s.writeStatus v).mem.pointer = s.mem.pointer := rfl
@[simp] theorem State.writeStatus_writeLatch (v : Byte) : (s.writeStatus v).mem.writeLatch = s.mem.writeLatch := rfl
@[simp] theorem State.writeStatus_readLatch (v : Byte) : (s.writeStatus v).mem.readLatch = s.mem.readLatch := rfl
@[simp] theorem State.writeStatus_crcJob (v : Byte) : (s.writeStatus v).mem.crcJob = s.mem.crcJob := rfl
@[simp] theorem State.writeStatus_arbiter (v : Byte) : (s.writeStatus v).mem.arbiter = s.mem.arbiter := rfl

/-! ### countHit -/

@[simp] theorem State.countHit_pins (i : Nat) : (s.countHit i).pins = s.pins := rfl
@[simp] theorem State.countHit_fetch (i : Nat) : (s.countHit i).fetch = s.fetch := rfl
@[simp] theorem State.countHit_mem (i : Nat) : (s.countHit i).mem = s.mem := rfl
@[simp] theorem State.countHit_gen (i : Nat) : (s.countHit i).gen = s.gen := rfl
@[simp] theorem State.countHit_log (i : Nat) : (s.countHit i).log = s.log := rfl
@[simp] theorem State.countHit_irq (i : Nat) : (s.countHit i).irq = s.irq := rfl
@[simp] theorem State.countHit_cmd (i : Nat) : (s.countHit i).cmd = s.cmd := rfl
@[simp] theorem State.countHit_loader (i : Nat) : (s.countHit i).loader = s.loader := rfl
@[simp] theorem State.countHit_divider (i : Nat) : (s.countHit i).divider = s.divider := rfl
@[simp] theorem State.countHit_windowData (i : Nat) : (s.countHit i).windowData = s.windowData := rfl
@[simp] theorem State.countHit_pending (i : Nat) : (s.countHit i).pending = s.pending := rfl

/-! ### setStaged -/

@[simp] theorem State.setStaged_pins (es : List Entry) : (s.setStaged es).pins = s.pins := rfl
@[simp] theorem State.setStaged_fetch (es : List Entry) : (s.setStaged es).fetch = s.fetch := rfl
@[simp] theorem State.setStaged_mem (es : List Entry) : (s.setStaged es).mem = s.mem := rfl
@[simp] theorem State.setStaged_gen (es : List Entry) : (s.setStaged es).gen = s.gen := rfl
@[simp] theorem State.setStaged_log (es : List Entry) : (s.setStaged es).log = s.log := rfl
@[simp] theorem State.setStaged_irq (es : List Entry) : (s.setStaged es).irq = s.irq := rfl
@[simp] theorem State.setStaged_cmd (es : List Entry) : (s.setStaged es).cmd = s.cmd := rfl
@[simp] theorem State.setStaged_loader (es : List Entry) : (s.setStaged es).loader = s.loader := rfl
@[simp] theorem State.setStaged_divider (es : List Entry) : (s.setStaged es).divider = s.divider := rfl
@[simp] theorem State.setStaged_windowData (es : List Entry) : (s.setStaged es).windowData = s.windowData := rfl
@[simp] theorem State.setStaged_pending (es : List Entry) : (s.setStaged es).pending = s.pending := rfl

/-! ### setLock -/

@[simp] theorem State.setLock_pins (b : Bool) : (s.setLock b).pins = s.pins := rfl
@[simp] theorem State.setLock_fetch (b : Bool) : (s.setLock b).fetch = s.fetch := rfl
@[simp] theorem State.setLock_mem (b : Bool) : (s.setLock b).mem = s.mem := rfl
@[simp] theorem State.setLock_gen (b : Bool) : (s.setLock b).gen = s.gen := rfl
@[simp] theorem State.setLock_log (b : Bool) : (s.setLock b).log = s.log := rfl
@[simp] theorem State.setLock_irq (b : Bool) : (s.setLock b).irq = s.irq := rfl
@[simp] theorem State.setLock_cmd (b : Bool) : (s.setLock b).cmd = s.cmd := rfl
@[simp] theorem State.setLock_loader (b : Bool) : (s.setLock b).loader = s.loader := rfl
@[simp] theorem State.setLock_divider (b : Bool) : (s.setLock b).divider = s.divider := rfl
@[simp] theorem State.setLock_windowData (b : Bool) : (s.setLock b).windowData = s.windowData := rfl
@[simp] theorem State.setLock_pending (b : Bool) : (s.setLock b).pending = s.pending := rfl

/-! ### setLiveEntries -/

@[simp] theorem State.setLiveEntries_pins (es : List Entry) : (s.setLiveEntries es).pins = s.pins := rfl
@[simp] theorem State.setLiveEntries_fetch (es : List Entry) : (s.setLiveEntries es).fetch = s.fetch := rfl
@[simp] theorem State.setLiveEntries_mem (es : List Entry) : (s.setLiveEntries es).mem = s.mem := rfl
@[simp] theorem State.setLiveEntries_gen (es : List Entry) : (s.setLiveEntries es).gen = s.gen := rfl
@[simp] theorem State.setLiveEntries_log (es : List Entry) : (s.setLiveEntries es).log = s.log := rfl
@[simp] theorem State.setLiveEntries_irq (es : List Entry) : (s.setLiveEntries es).irq = s.irq := rfl
@[simp] theorem State.setLiveEntries_cmd (es : List Entry) : (s.setLiveEntries es).cmd = s.cmd := rfl
@[simp] theorem State.setLiveEntries_loader (es : List Entry) : (s.setLiveEntries es).loader = s.loader := rfl
@[simp] theorem State.setLiveEntries_divider (es : List Entry) : (s.setLiveEntries es).divider = s.divider := rfl
@[simp] theorem State.setLiveEntries_windowData (es : List Entry) : (s.setLiveEntries es).windowData = s.windowData := rfl
@[simp] theorem State.setLiveEntries_pending (es : List Entry) : (s.setLiveEntries es).pending = s.pending := rfl

/-! ### setGenState -/

@[simp] theorem State.setGenState_pins (g : GenState) : (s.setGenState g).pins = s.pins := rfl
@[simp] theorem State.setGenState_fetch (g : GenState) : (s.setGenState g).fetch = s.fetch := rfl
@[simp] theorem State.setGenState_mem (g : GenState) : (s.setGenState g).mem = s.mem := rfl
@[simp] theorem State.setGenState_tables (g : GenState) : (s.setGenState g).tables = s.tables := rfl
@[simp] theorem State.setGenState_log (g : GenState) : (s.setGenState g).log = s.log := rfl
@[simp] theorem State.setGenState_irq (g : GenState) : (s.setGenState g).irq = s.irq := rfl
@[simp] theorem State.setGenState_cmd (g : GenState) : (s.setGenState g).cmd = s.cmd := rfl
@[simp] theorem State.setGenState_loader (g : GenState) : (s.setGenState g).loader = s.loader := rfl
@[simp] theorem State.setGenState_divider (g : GenState) : (s.setGenState g).divider = s.divider := rfl
@[simp] theorem State.setGenState_windowData (g : GenState) : (s.setGenState g).windowData = s.windowData := rfl
@[simp] theorem State.setGenState_pending (g : GenState) : (s.setGenState g).pending = s.pending := rfl

/-! ### decideExpiry -/

@[simp] theorem State.decideExpiry_pins : (s.decideExpiry).pins = s.pins := rfl
@[simp] theorem State.decideExpiry_fetch : (s.decideExpiry).fetch = s.fetch := rfl
@[simp] theorem State.decideExpiry_mem : (s.decideExpiry).mem = s.mem := rfl
@[simp] theorem State.decideExpiry_tables : (s.decideExpiry).tables = s.tables := rfl
@[simp] theorem State.decideExpiry_log : (s.decideExpiry).log = s.log := rfl
@[simp] theorem State.decideExpiry_irq : (s.decideExpiry).irq = s.irq := rfl
@[simp] theorem State.decideExpiry_cmd : (s.decideExpiry).cmd = s.cmd := rfl
@[simp] theorem State.decideExpiry_loader : (s.decideExpiry).loader = s.loader := rfl
@[simp] theorem State.decideExpiry_divider : (s.decideExpiry).divider = s.divider := rfl
@[simp] theorem State.decideExpiry_windowData : (s.decideExpiry).windowData = s.windowData := rfl
@[simp] theorem State.decideExpiry_pending : (s.decideExpiry).pending = s.pending := rfl

/-! ### recordCommit -/

@[simp] theorem State.recordCommit_pins (c : PendingCommit) : (s.recordCommit c).pins = s.pins := rfl
@[simp] theorem State.recordCommit_fetch (c : PendingCommit) : (s.recordCommit c).fetch = s.fetch := rfl
@[simp] theorem State.recordCommit_mem (c : PendingCommit) : (s.recordCommit c).mem = s.mem := rfl
@[simp] theorem State.recordCommit_log (c : PendingCommit) : (s.recordCommit c).log = s.log := rfl
@[simp] theorem State.recordCommit_irq (c : PendingCommit) : (s.recordCommit c).irq = s.irq := rfl
@[simp] theorem State.recordCommit_cmd (c : PendingCommit) : (s.recordCommit c).cmd = s.cmd := rfl
@[simp] theorem State.recordCommit_loader (c : PendingCommit) : (s.recordCommit c).loader = s.loader := rfl
@[simp] theorem State.recordCommit_divider (c : PendingCommit) : (s.recordCommit c).divider = s.divider := rfl
@[simp] theorem State.recordCommit_windowData (c : PendingCommit) : (s.recordCommit c).windowData = s.windowData := rfl
@[simp] theorem State.recordCommit_pending (c : PendingCommit) : (s.recordCommit c).pending = s.pending := rfl

/-! ### holdRevert -/

@[simp] theorem State.holdRevert_pins (o : LastOutcome) : (s.holdRevert o).pins = s.pins := rfl
@[simp] theorem State.holdRevert_fetch (o : LastOutcome) : (s.holdRevert o).fetch = s.fetch := rfl
@[simp] theorem State.holdRevert_mem (o : LastOutcome) : (s.holdRevert o).mem = s.mem := rfl
@[simp] theorem State.holdRevert_tables (o : LastOutcome) : (s.holdRevert o).tables = s.tables := rfl
@[simp] theorem State.holdRevert_log (o : LastOutcome) : (s.holdRevert o).log = s.log := rfl
@[simp] theorem State.holdRevert_irq (o : LastOutcome) : (s.holdRevert o).irq = s.irq := rfl
@[simp] theorem State.holdRevert_loader (o : LastOutcome) : (s.holdRevert o).loader = s.loader := rfl
@[simp] theorem State.holdRevert_divider (o : LastOutcome) : (s.holdRevert o).divider = s.divider := rfl
@[simp] theorem State.holdRevert_windowData (o : LastOutcome) : (s.holdRevert o).windowData = s.windowData := rfl
@[simp] theorem State.holdRevert_pending (o : LastOutcome) : (s.holdRevert o).pending = s.pending := rfl

/-! ### setFetch -/

@[simp] theorem State.setFetch_pins (f : FetchPort) : (s.setFetch f).pins = s.pins := rfl
@[simp] theorem State.setFetch_mem (f : FetchPort) : (s.setFetch f).mem = s.mem := rfl
@[simp] theorem State.setFetch_tables (f : FetchPort) : (s.setFetch f).tables = s.tables := rfl
@[simp] theorem State.setFetch_gen (f : FetchPort) : (s.setFetch f).gen = s.gen := rfl
@[simp] theorem State.setFetch_log (f : FetchPort) : (s.setFetch f).log = s.log := rfl
@[simp] theorem State.setFetch_irq (f : FetchPort) : (s.setFetch f).irq = s.irq := rfl
@[simp] theorem State.setFetch_cmd (f : FetchPort) : (s.setFetch f).cmd = s.cmd := rfl
@[simp] theorem State.setFetch_loader (f : FetchPort) : (s.setFetch f).loader = s.loader := rfl
@[simp] theorem State.setFetch_divider (f : FetchPort) : (s.setFetch f).divider = s.divider := rfl
@[simp] theorem State.setFetch_windowData (f : FetchPort) : (s.setFetch f).windowData = s.windowData := rfl
@[simp] theorem State.setFetch_pending (f : FetchPort) : (s.setFetch f).pending = s.pending := rfl

/-! ### startRom -/

@[simp] theorem State.startRom_pins (a : FetchAddr) (c : RomCycle) : (s.startRom a c).pins = s.pins := rfl
@[simp] theorem State.startRom_mem (a : FetchAddr) (c : RomCycle) : (s.startRom a c).mem = s.mem := rfl
@[simp] theorem State.startRom_tables (a : FetchAddr) (c : RomCycle) : (s.startRom a c).tables = s.tables := rfl
@[simp] theorem State.startRom_gen (a : FetchAddr) (c : RomCycle) : (s.startRom a c).gen = s.gen := rfl
@[simp] theorem State.startRom_log (a : FetchAddr) (c : RomCycle) : (s.startRom a c).log = s.log := rfl
@[simp] theorem State.startRom_irq (a : FetchAddr) (c : RomCycle) : (s.startRom a c).irq = s.irq := rfl
@[simp] theorem State.startRom_cmd (a : FetchAddr) (c : RomCycle) : (s.startRom a c).cmd = s.cmd := rfl
@[simp] theorem State.startRom_loader (a : FetchAddr) (c : RomCycle) : (s.startRom a c).loader = s.loader := rfl
@[simp] theorem State.startRom_divider (a : FetchAddr) (c : RomCycle) : (s.startRom a c).divider = s.divider := rfl
@[simp] theorem State.startRom_windowData (a : FetchAddr) (c : RomCycle) : (s.startRom a c).windowData = s.windowData := rfl
@[simp] theorem State.startRom_pending (a : FetchAddr) (c : RomCycle) : (s.startRom a c).pending = s.pending := rfl

/-! ### endRom -/

@[simp] theorem State.endRom_pins : (s.endRom).pins = s.pins := rfl
@[simp] theorem State.endRom_mem : (s.endRom).mem = s.mem := rfl
@[simp] theorem State.endRom_tables : (s.endRom).tables = s.tables := rfl
@[simp] theorem State.endRom_gen : (s.endRom).gen = s.gen := rfl
@[simp] theorem State.endRom_log : (s.endRom).log = s.log := rfl
@[simp] theorem State.endRom_irq : (s.endRom).irq = s.irq := rfl
@[simp] theorem State.endRom_cmd : (s.endRom).cmd = s.cmd := rfl
@[simp] theorem State.endRom_loader : (s.endRom).loader = s.loader := rfl
@[simp] theorem State.endRom_divider : (s.endRom).divider = s.divider := rfl
@[simp] theorem State.endRom_windowData : (s.endRom).windowData = s.windowData := rfl
@[simp] theorem State.endRom_pending : (s.endRom).pending = s.pending := rfl

/-! ### beat -/

@[simp] theorem State.beat_pins (r : Request) (d : Option Word) : (s.beat r d).pins = s.pins := rfl
@[simp] theorem State.beat_mem (r : Request) (d : Option Word) : (s.beat r d).mem = s.mem := rfl
@[simp] theorem State.beat_tables (r : Request) (d : Option Word) : (s.beat r d).tables = s.tables := rfl
@[simp] theorem State.beat_gen (r : Request) (d : Option Word) : (s.beat r d).gen = s.gen := rfl
@[simp] theorem State.beat_log (r : Request) (d : Option Word) : (s.beat r d).log = s.log := rfl
@[simp] theorem State.beat_irq (r : Request) (d : Option Word) : (s.beat r d).irq = s.irq := rfl
@[simp] theorem State.beat_cmd (r : Request) (d : Option Word) : (s.beat r d).cmd = s.cmd := rfl
@[simp] theorem State.beat_loader (r : Request) (d : Option Word) : (s.beat r d).loader = s.loader := rfl
@[simp] theorem State.beat_divider (r : Request) (d : Option Word) : (s.beat r d).divider = s.divider := rfl
@[simp] theorem State.beat_windowData (r : Request) (d : Option Word) : (s.beat r d).windowData = s.windowData := rfl
@[simp] theorem State.beat_pending (r : Request) (d : Option Word) : (s.beat r d).pending = s.pending := rfl

/-! ### endRequest -/

@[simp] theorem State.endRequest_pins : (s.endRequest).pins = s.pins := rfl
@[simp] theorem State.endRequest_tables : (s.endRequest).tables = s.tables := rfl
@[simp] theorem State.endRequest_gen : (s.endRequest).gen = s.gen := rfl
@[simp] theorem State.endRequest_log : (s.endRequest).log = s.log := rfl
@[simp] theorem State.endRequest_irq : (s.endRequest).irq = s.irq := rfl
@[simp] theorem State.endRequest_cmd : (s.endRequest).cmd = s.cmd := rfl
@[simp] theorem State.endRequest_loader : (s.endRequest).loader = s.loader := rfl
@[simp] theorem State.endRequest_divider : (s.endRequest).divider = s.divider := rfl
@[simp] theorem State.endRequest_windowData : (s.endRequest).windowData = s.windowData := rfl
@[simp] theorem State.endRequest_pending : (s.endRequest).pending = s.pending := rfl
@[simp] theorem State.endRequest_ram : (s.endRequest).mem.ram = s.mem.ram := rfl
@[simp] theorem State.endRequest_segments : (s.endRequest).mem.segments = s.mem.segments := rfl
@[simp] theorem State.endRequest_pointer : (s.endRequest).mem.pointer = s.mem.pointer := rfl
@[simp] theorem State.endRequest_writeLatch : (s.endRequest).mem.writeLatch = s.mem.writeLatch := rfl
@[simp] theorem State.endRequest_readLatch : (s.endRequest).mem.readLatch = s.mem.readLatch := rfl
@[simp] theorem State.endRequest_dataReject : (s.endRequest).mem.dataReject = s.mem.dataReject := rfl
@[simp] theorem State.endRequest_crcJob : (s.endRequest).mem.crcJob = s.mem.crcJob := rfl

/-! ### setRecords -/

@[simp] theorem State.setRecords_pins (rs : List LogRecord) : (s.setRecords rs).pins = s.pins := rfl
@[simp] theorem State.setRecords_fetch (rs : List LogRecord) : (s.setRecords rs).fetch = s.fetch := rfl
@[simp] theorem State.setRecords_mem (rs : List LogRecord) : (s.setRecords rs).mem = s.mem := rfl
@[simp] theorem State.setRecords_tables (rs : List LogRecord) : (s.setRecords rs).tables = s.tables := rfl
@[simp] theorem State.setRecords_gen (rs : List LogRecord) : (s.setRecords rs).gen = s.gen := rfl
@[simp] theorem State.setRecords_irq (rs : List LogRecord) : (s.setRecords rs).irq = s.irq := rfl
@[simp] theorem State.setRecords_cmd (rs : List LogRecord) : (s.setRecords rs).cmd = s.cmd := rfl
@[simp] theorem State.setRecords_loader (rs : List LogRecord) : (s.setRecords rs).loader = s.loader := rfl
@[simp] theorem State.setRecords_divider (rs : List LogRecord) : (s.setRecords rs).divider = s.divider := rfl
@[simp] theorem State.setRecords_windowData (rs : List LogRecord) : (s.setRecords rs).windowData = s.windowData := rfl
@[simp] theorem State.setRecords_pending (rs : List LogRecord) : (s.setRecords rs).pending = s.pending := rfl

/-! ### driveWindow -/

@[simp] theorem State.driveWindow_pins (b : Byte) : (s.driveWindow b).pins = s.pins := rfl
@[simp] theorem State.driveWindow_fetch (b : Byte) : (s.driveWindow b).fetch = s.fetch := rfl
@[simp] theorem State.driveWindow_mem (b : Byte) : (s.driveWindow b).mem = s.mem := rfl
@[simp] theorem State.driveWindow_tables (b : Byte) : (s.driveWindow b).tables = s.tables := rfl
@[simp] theorem State.driveWindow_gen (b : Byte) : (s.driveWindow b).gen = s.gen := rfl
@[simp] theorem State.driveWindow_log (b : Byte) : (s.driveWindow b).log = s.log := rfl
@[simp] theorem State.driveWindow_irq (b : Byte) : (s.driveWindow b).irq = s.irq := rfl
@[simp] theorem State.driveWindow_cmd (b : Byte) : (s.driveWindow b).cmd = s.cmd := rfl
@[simp] theorem State.driveWindow_loader (b : Byte) : (s.driveWindow b).loader = s.loader := rfl
@[simp] theorem State.driveWindow_divider (b : Byte) : (s.driveWindow b).divider = s.divider := rfl
@[simp] theorem State.driveWindow_pending (b : Byte) : (s.driveWindow b).pending = s.pending := rfl

/-! ### setLoader -/

@[simp] theorem State.setLoader_pins (l : Loader) : (s.setLoader l).pins = s.pins := rfl
@[simp] theorem State.setLoader_fetch (l : Loader) : (s.setLoader l).fetch = s.fetch := rfl
@[simp] theorem State.setLoader_mem (l : Loader) : (s.setLoader l).mem = s.mem := rfl
@[simp] theorem State.setLoader_tables (l : Loader) : (s.setLoader l).tables = s.tables := rfl
@[simp] theorem State.setLoader_gen (l : Loader) : (s.setLoader l).gen = s.gen := rfl
@[simp] theorem State.setLoader_log (l : Loader) : (s.setLoader l).log = s.log := rfl
@[simp] theorem State.setLoader_irq (l : Loader) : (s.setLoader l).irq = s.irq := rfl
@[simp] theorem State.setLoader_cmd (l : Loader) : (s.setLoader l).cmd = s.cmd := rfl
@[simp] theorem State.setLoader_divider (l : Loader) : (s.setLoader l).divider = s.divider := rfl
@[simp] theorem State.setLoader_windowData (l : Loader) : (s.setLoader l).windowData = s.windowData := rfl
@[simp] theorem State.setLoader_pending (l : Loader) : (s.setLoader l).pending = s.pending := rfl

/-! ### startSlot -/

@[simp] theorem State.startSlot_pins (x : Slot) : (s.startSlot x).pins = s.pins := rfl
@[simp] theorem State.startSlot_fetch (x : Slot) : (s.startSlot x).fetch = s.fetch := rfl
@[simp] theorem State.startSlot_mem (x : Slot) : (s.startSlot x).mem = s.mem := rfl
@[simp] theorem State.startSlot_tables (x : Slot) : (s.startSlot x).tables = s.tables := rfl
@[simp] theorem State.startSlot_gen (x : Slot) : (s.startSlot x).gen = s.gen := rfl
@[simp] theorem State.startSlot_log (x : Slot) : (s.startSlot x).log = s.log := rfl
@[simp] theorem State.startSlot_irq (x : Slot) : (s.startSlot x).irq = s.irq := rfl
@[simp] theorem State.startSlot_cmd (x : Slot) : (s.startSlot x).cmd = s.cmd := rfl
@[simp] theorem State.startSlot_divider (x : Slot) : (s.startSlot x).divider = s.divider := rfl
@[simp] theorem State.startSlot_windowData (x : Slot) : (s.startSlot x).windowData = s.windowData := rfl
@[simp] theorem State.startSlot_pending (x : Slot) : (s.startSlot x).pending = s.pending := rfl

/-! ### endRun -/

@[simp] theorem State.endRun_pins (o : OutcomeRecord) : (s.endRun o).pins = s.pins := rfl
@[simp] theorem State.endRun_fetch (o : OutcomeRecord) : (s.endRun o).fetch = s.fetch := rfl
@[simp] theorem State.endRun_mem (o : OutcomeRecord) : (s.endRun o).mem = s.mem := rfl
@[simp] theorem State.endRun_tables (o : OutcomeRecord) : (s.endRun o).tables = s.tables := rfl
@[simp] theorem State.endRun_gen (o : OutcomeRecord) : (s.endRun o).gen = s.gen := rfl
@[simp] theorem State.endRun_log (o : OutcomeRecord) : (s.endRun o).log = s.log := rfl
@[simp] theorem State.endRun_cmd (o : OutcomeRecord) : (s.endRun o).cmd = s.cmd := rfl
@[simp] theorem State.endRun_divider (o : OutcomeRecord) : (s.endRun o).divider = s.divider := rfl
@[simp] theorem State.endRun_windowData (o : OutcomeRecord) : (s.endRun o).windowData = s.windowData := rfl
@[simp] theorem State.endRun_pending (o : OutcomeRecord) : (s.endRun o).pending = s.pending := rfl

/-! ### readBody -/

@[simp] theorem State.readBody_pins (bs : List Byte) : (s.readBody bs).pins = s.pins := rfl
@[simp] theorem State.readBody_fetch (bs : List Byte) : (s.readBody bs).fetch = s.fetch := rfl
@[simp] theorem State.readBody_mem (bs : List Byte) : (s.readBody bs).mem = s.mem := rfl
@[simp] theorem State.readBody_tables (bs : List Byte) : (s.readBody bs).tables = s.tables := rfl
@[simp] theorem State.readBody_gen (bs : List Byte) : (s.readBody bs).gen = s.gen := rfl
@[simp] theorem State.readBody_log (bs : List Byte) : (s.readBody bs).log = s.log := rfl
@[simp] theorem State.readBody_irq (bs : List Byte) : (s.readBody bs).irq = s.irq := rfl
@[simp] theorem State.readBody_cmd (bs : List Byte) : (s.readBody bs).cmd = s.cmd := rfl
@[simp] theorem State.readBody_divider (bs : List Byte) : (s.readBody bs).divider = s.divider := rfl
@[simp] theorem State.readBody_windowData (bs : List Byte) : (s.readBody bs).windowData = s.windowData := rfl
@[simp] theorem State.readBody_pending (bs : List Byte) : (s.readBody bs).pending = s.pending := rfl

/-! ### completeRecord -/

@[simp] theorem State.completeRecord_pins : (s.completeRecord).pins = s.pins := rfl
@[simp] theorem State.completeRecord_fetch : (s.completeRecord).fetch = s.fetch := rfl
@[simp] theorem State.completeRecord_mem : (s.completeRecord).mem = s.mem := rfl
@[simp] theorem State.completeRecord_tables : (s.completeRecord).tables = s.tables := rfl
@[simp] theorem State.completeRecord_gen : (s.completeRecord).gen = s.gen := rfl
@[simp] theorem State.completeRecord_log : (s.completeRecord).log = s.log := rfl
@[simp] theorem State.completeRecord_irq : (s.completeRecord).irq = s.irq := rfl
@[simp] theorem State.completeRecord_cmd : (s.completeRecord).cmd = s.cmd := rfl
@[simp] theorem State.completeRecord_divider : (s.completeRecord).divider = s.divider := rfl
@[simp] theorem State.completeRecord_windowData : (s.completeRecord).windowData = s.windowData := rfl
@[simp] theorem State.completeRecord_pending : (s.completeRecord).pending = s.pending := rfl

/-! ### beginSegment -/

@[simp] theorem State.beginSegment_pins (h : Handle) (r : Run) (n : Nat) (e : Crc32) : (s.beginSegment h r n e).pins = s.pins := rfl
@[simp] theorem State.beginSegment_fetch (h : Handle) (r : Run) (n : Nat) (e : Crc32) : (s.beginSegment h r n e).fetch = s.fetch := rfl
@[simp] theorem State.beginSegment_tables (h : Handle) (r : Run) (n : Nat) (e : Crc32) : (s.beginSegment h r n e).tables = s.tables := rfl
@[simp] theorem State.beginSegment_gen (h : Handle) (r : Run) (n : Nat) (e : Crc32) : (s.beginSegment h r n e).gen = s.gen := rfl
@[simp] theorem State.beginSegment_log (h : Handle) (r : Run) (n : Nat) (e : Crc32) : (s.beginSegment h r n e).log = s.log := rfl
@[simp] theorem State.beginSegment_irq (h : Handle) (r : Run) (n : Nat) (e : Crc32) : (s.beginSegment h r n e).irq = s.irq := rfl
@[simp] theorem State.beginSegment_cmd (h : Handle) (r : Run) (n : Nat) (e : Crc32) : (s.beginSegment h r n e).cmd = s.cmd := rfl
@[simp] theorem State.beginSegment_divider (h : Handle) (r : Run) (n : Nat) (e : Crc32) : (s.beginSegment h r n e).divider = s.divider := rfl
@[simp] theorem State.beginSegment_windowData (h : Handle) (r : Run) (n : Nat) (e : Crc32) : (s.beginSegment h r n e).windowData = s.windowData := rfl
@[simp] theorem State.beginSegment_pending (h : Handle) (r : Run) (n : Nat) (e : Crc32) : (s.beginSegment h r n e).pending = s.pending := rfl
@[simp] theorem State.beginSegment_ram (h : Handle) (r : Run) (n : Nat) (e : Crc32) : (s.beginSegment h r n e).mem.ram = s.mem.ram := rfl
@[simp] theorem State.beginSegment_pointer (h : Handle) (r : Run) (n : Nat) (e : Crc32) : (s.beginSegment h r n e).mem.pointer = s.mem.pointer := rfl
@[simp] theorem State.beginSegment_writeLatch (h : Handle) (r : Run) (n : Nat) (e : Crc32) : (s.beginSegment h r n e).mem.writeLatch = s.mem.writeLatch := rfl
@[simp] theorem State.beginSegment_readLatch (h : Handle) (r : Run) (n : Nat) (e : Crc32) : (s.beginSegment h r n e).mem.readLatch = s.mem.readLatch := rfl
@[simp] theorem State.beginSegment_dataReject (h : Handle) (r : Run) (n : Nat) (e : Crc32) : (s.beginSegment h r n e).mem.dataReject = s.mem.dataReject := rfl
@[simp] theorem State.beginSegment_crcJob (h : Handle) (r : Run) (n : Nat) (e : Crc32) : (s.beginSegment h r n e).mem.crcJob = s.mem.crcJob := rfl
@[simp] theorem State.beginSegment_arbiter (h : Handle) (r : Run) (n : Nat) (e : Crc32) : (s.beginSegment h r n e).mem.arbiter = s.mem.arbiter := rfl

/-! ### loadWord -/

@[simp] theorem State.loadWord_pins (p : SegmentProgress) (w : Word) : (s.loadWord p w).pins = s.pins := rfl
@[simp] theorem State.loadWord_fetch (p : SegmentProgress) (w : Word) : (s.loadWord p w).fetch = s.fetch := rfl
@[simp] theorem State.loadWord_tables (p : SegmentProgress) (w : Word) : (s.loadWord p w).tables = s.tables := rfl
@[simp] theorem State.loadWord_gen (p : SegmentProgress) (w : Word) : (s.loadWord p w).gen = s.gen := rfl
@[simp] theorem State.loadWord_log (p : SegmentProgress) (w : Word) : (s.loadWord p w).log = s.log := rfl
@[simp] theorem State.loadWord_irq (p : SegmentProgress) (w : Word) : (s.loadWord p w).irq = s.irq := rfl
@[simp] theorem State.loadWord_cmd (p : SegmentProgress) (w : Word) : (s.loadWord p w).cmd = s.cmd := rfl
@[simp] theorem State.loadWord_divider (p : SegmentProgress) (w : Word) : (s.loadWord p w).divider = s.divider := rfl
@[simp] theorem State.loadWord_windowData (p : SegmentProgress) (w : Word) : (s.loadWord p w).windowData = s.windowData := rfl
@[simp] theorem State.loadWord_pending (p : SegmentProgress) (w : Word) : (s.loadWord p w).pending = s.pending := rfl
@[simp] theorem State.loadWord_segments (p : SegmentProgress) (w : Word) : (s.loadWord p w).mem.segments = s.mem.segments := rfl
@[simp] theorem State.loadWord_pointer (p : SegmentProgress) (w : Word) : (s.loadWord p w).mem.pointer = s.mem.pointer := rfl
@[simp] theorem State.loadWord_writeLatch (p : SegmentProgress) (w : Word) : (s.loadWord p w).mem.writeLatch = s.mem.writeLatch := rfl
@[simp] theorem State.loadWord_readLatch (p : SegmentProgress) (w : Word) : (s.loadWord p w).mem.readLatch = s.mem.readLatch := rfl
@[simp] theorem State.loadWord_dataReject (p : SegmentProgress) (w : Word) : (s.loadWord p w).mem.dataReject = s.mem.dataReject := rfl
@[simp] theorem State.loadWord_crcJob (p : SegmentProgress) (w : Word) : (s.loadWord p w).mem.crcJob = s.mem.crcJob := rfl
@[simp] theorem State.loadWord_arbiter (p : SegmentProgress) (w : Word) : (s.loadWord p w).mem.arbiter = s.mem.arbiter.dataEnded.claimData := rfl

/-! ### loaderSeal -/

@[simp] theorem State.loaderSeal_pins (p : SegmentProgress) (r : Run) : (s.loaderSeal p r).pins = s.pins := rfl
@[simp] theorem State.loaderSeal_fetch (p : SegmentProgress) (r : Run) : (s.loaderSeal p r).fetch = s.fetch := rfl
@[simp] theorem State.loaderSeal_tables (p : SegmentProgress) (r : Run) : (s.loaderSeal p r).tables = s.tables := rfl
@[simp] theorem State.loaderSeal_gen (p : SegmentProgress) (r : Run) : (s.loaderSeal p r).gen = s.gen := rfl
@[simp] theorem State.loaderSeal_log (p : SegmentProgress) (r : Run) : (s.loaderSeal p r).log = s.log := rfl
@[simp] theorem State.loaderSeal_irq (p : SegmentProgress) (r : Run) : (s.loaderSeal p r).irq = s.irq := rfl
@[simp] theorem State.loaderSeal_cmd (p : SegmentProgress) (r : Run) : (s.loaderSeal p r).cmd = s.cmd := rfl
@[simp] theorem State.loaderSeal_divider (p : SegmentProgress) (r : Run) : (s.loaderSeal p r).divider = s.divider := rfl
@[simp] theorem State.loaderSeal_windowData (p : SegmentProgress) (r : Run) : (s.loaderSeal p r).windowData = s.windowData := rfl
@[simp] theorem State.loaderSeal_pending (p : SegmentProgress) (r : Run) : (s.loaderSeal p r).pending = s.pending := rfl
@[simp] theorem State.loaderSeal_ram (p : SegmentProgress) (r : Run) : (s.loaderSeal p r).mem.ram = s.mem.ram := rfl
@[simp] theorem State.loaderSeal_pointer (p : SegmentProgress) (r : Run) : (s.loaderSeal p r).mem.pointer = s.mem.pointer := rfl
@[simp] theorem State.loaderSeal_writeLatch (p : SegmentProgress) (r : Run) : (s.loaderSeal p r).mem.writeLatch = s.mem.writeLatch := rfl
@[simp] theorem State.loaderSeal_readLatch (p : SegmentProgress) (r : Run) : (s.loaderSeal p r).mem.readLatch = s.mem.readLatch := rfl
@[simp] theorem State.loaderSeal_dataReject (p : SegmentProgress) (r : Run) : (s.loaderSeal p r).mem.dataReject = s.mem.dataReject := rfl

/-! ### The fields that are set -/

@[simp] theorem State.setSegment_segments (h : Handle) (g : Segment) :
    (s.setSegment h g).mem.segments = s.mem.segments.set h g := rfl
@[simp] theorem State.unsetPointer_pointer : s.unsetPointer.mem.pointer = none := rfl
@[simp] theorem State.unsetPointer_readLatch : s.unsetPointer.mem.readLatch = none := rfl
@[simp] theorem State.setArbiter_arbiter (a : Arbiter) : (s.setArbiter a).mem.arbiter = a := rfl
@[simp] theorem State.freePort_arbiter : s.freePort.mem.arbiter = s.mem.arbiter.finish.grant := rfl
@[simp] theorem State.dataEnded_arbiter : s.dataEnded.mem.arbiter = s.mem.arbiter.dataEnded := rfl
@[simp] theorem State.claimData_arbiter : s.claimData.mem.arbiter = s.mem.arbiter.claimData := rfl
@[simp] theorem State.rejectData_dataReject : s.rejectData.mem.dataReject = true := rfl
@[simp] theorem State.setPointer_pointer (h : Handle) (o : Nat) :
    (s.setPointer h o).mem.pointer = some { handle := h, offset := o } := rfl
@[simp] theorem State.setPointer_readLatch (h : Handle) (o : Nat) : (s.setPointer h o).mem.readLatch = none := rfl
@[simp] theorem State.movePointer_pointer (p : DataPointer) (o : Nat) :
    (s.movePointer p o).mem.pointer = some { p with offset := o } := rfl
@[simp] theorem State.setReadLatch_readLatch (b : Option Byte) : (s.setReadLatch b).mem.readLatch = b := rfl
@[simp] theorem State.writeDataLo_writeLatch (v : Byte) : (s.writeDataLo v).mem.writeLatch = v := rfl
@[simp] theorem State.zeroFill_ram : s.zeroFill.mem.ram = [] := rfl
@[simp] theorem State.raise_pending_set (c : Cause) : (s.raise c).irq.pending = s.irq.pending ||| c.mask := rfl
@[simp] theorem State.raise_enable (c : Cause) : (s.raise c).irq.enable = s.irq.enable := rfl
@[simp] theorem State.answer_busy (c : ResultCode) (bs : List Byte) : (s.answer c bs).cmd.busy = s.cmd.busy := rfl
@[simp] theorem State.answer_result (c : ResultCode) (bs : List Byte) : (s.answer c bs).cmd.result = c := rfl
@[simp] theorem State.answer_params (c : ResultCode) (bs : List Byte) : (s.answer c bs).cmd.params = resultBytes bs := rfl
@[simp] theorem State.hold_busy (k : HeldCommand) : (s.hold k).cmd.busy = some k := rfl
@[simp] theorem State.hold_result (k : HeldCommand) : (s.hold k).cmd.result = .busy := rfl
@[simp] theorem State.hold_params (k : HeldCommand) : (s.hold k).cmd.params = s.cmd.params := rfl
@[simp] theorem State.release_busy (c : ResultCode) (bs : List Byte) : (s.release c bs).cmd.busy = none := rfl
@[simp] theorem State.setCommand_busy (v : Byte) : (s.setCommand v).cmd.busy = s.cmd.busy := rfl
@[simp] theorem State.setCommand_params (v : Byte) : (s.setCommand v).cmd.params = s.cmd.params := rfl
@[simp] theorem State.refuse_busy : s.refuse.cmd.busy = s.cmd.busy := rfl
@[simp] theorem State.refuseConfirm_busy : s.refuseConfirm.cmd.busy = s.cmd.busy := rfl
@[simp] theorem State.refuseRemove_busy (c : ResultCode) : (s.refuseRemove c).cmd.busy = s.cmd.busy := rfl
@[simp] theorem State.writeStatus_busy (v : Byte) : (s.writeStatus v).cmd.busy = s.cmd.busy := rfl
@[simp] theorem State.holdRevert_busy (o : LastOutcome) : (s.holdRevert o).cmd.busy = some .revert := rfl
@[simp] theorem State.setStaged_staged (es : List Entry) : (s.setStaged es).tables.staged = es := rfl
@[simp] theorem State.setStaged_stagedLock (es : List Entry) :
    (s.setStaged es).tables.stagedLock = s.tables.stagedLock := rfl
@[simp] theorem State.setStaged_live (es : List Entry) : (s.setStaged es).tables.live = s.tables.live := rfl
@[simp] theorem State.setStaged_prior (es : List Entry) : (s.setStaged es).tables.prior = s.tables.prior := rfl
@[simp] theorem State.setLock_staged (b : Bool) : (s.setLock b).tables.staged = s.tables.staged := rfl
@[simp] theorem State.setLock_stagedLock (b : Bool) : (s.setLock b).tables.stagedLock = b := rfl
@[simp] theorem State.setLock_live (b : Bool) : (s.setLock b).tables.live = s.tables.live := rfl
@[simp] theorem State.setLock_prior (b : Bool) : (s.setLock b).tables.prior = s.tables.prior := rfl
@[simp] theorem State.setLiveEntries_staged (es : List Entry) :
    (s.setLiveEntries es).tables.staged = s.tables.staged := rfl
@[simp] theorem State.setLiveEntries_stagedLock (es : List Entry) :
    (s.setLiveEntries es).tables.stagedLock = s.tables.stagedLock := rfl
@[simp] theorem State.setLiveEntries_entries (es : List Entry) : (s.setLiveEntries es).tables.live.entries = es := rfl
@[simp] theorem State.setLiveEntries_generation (es : List Entry) :
    (s.setLiveEntries es).tables.live.generation = s.tables.live.generation := rfl
@[simp] theorem State.setLiveEntries_prior (es : List Entry) :
    (s.setLiveEntries es).tables.prior = s.tables.prior := rfl
@[simp] theorem State.countHit_staged (i : Nat) : (s.countHit i).tables.staged = s.tables.staged := rfl
@[simp] theorem State.countHit_stagedLock (i : Nat) : (s.countHit i).tables.stagedLock = s.tables.stagedLock := rfl
@[simp] theorem State.countHit_entries (i : Nat) :
    (s.countHit i).tables.live.entries = s.tables.live.entries.modify i Entry.hit := rfl
@[simp] theorem State.countHit_generation (i : Nat) :
    (s.countHit i).tables.live.generation = s.tables.live.generation := rfl
@[simp] theorem State.countHit_prior (i : Nat) : (s.countHit i).tables.prior = s.tables.prior := rfl
@[simp] theorem State.setGenState_state (g : GenState) : (s.setGenState g).gen.state = g := rfl
@[simp] theorem State.holdRevert_state (o : LastOutcome) :
    (s.holdRevert o).gen.state = .revertWaiting .manual := rfl
@[simp] theorem State.recordCommit_state (c : PendingCommit) : (s.recordCommit c).gen.state = .commitPending c := rfl
@[simp] theorem State.recordCommit_staged (c : PendingCommit) :
    (s.recordCommit c).tables.staged = s.tables.staged := rfl
@[simp] theorem State.recordCommit_stagedLock (c : PendingCommit) :
    (s.recordCommit c).tables.stagedLock = true := rfl
@[simp] theorem State.recordCommit_live (c : PendingCommit) : (s.recordCommit c).tables.live = s.tables.live := rfl
@[simp] theorem State.recordCommit_prior (c : PendingCommit) : (s.recordCommit c).tables.prior = s.tables.prior := rfl
@[simp] theorem State.setFetch_fetch (f : FetchPort) : (s.setFetch f).fetch = f := rfl
@[simp] theorem State.startRom_request (a : FetchAddr) (c : RomCycle) :
    (s.startRom a c).fetch.request = s.fetch.request := rfl
@[simp] theorem State.startRom_standing (a : FetchAddr) (c : RomCycle) :
    (s.startRom a c).fetch.standing = s.fetch.standing := rfl
@[simp] theorem State.startRom_romCycle (a : FetchAddr) (c : RomCycle) : (s.startRom a c).fetch.romCycle = c := rfl
@[simp] theorem State.startRom_romAddress (a : FetchAddr) (c : RomCycle) : (s.startRom a c).fetch.romAddress = a := rfl
@[simp] theorem State.endRom_request : s.endRom.fetch.request = s.fetch.request := rfl
@[simp] theorem State.endRom_standing : s.endRom.fetch.standing = s.fetch.standing := rfl
@[simp] theorem State.endRom_romCycle : s.endRom.fetch.romCycle = .none := rfl
@[simp] theorem State.beat_request (r : Request) (d : Option Word) : (s.beat r d).fetch.request = r.next := rfl
@[simp] theorem State.beat_standing (r : Request) (d : Option Word) : (s.beat r d).fetch.standing = s.fetch.standing := rfl
@[simp] theorem State.beat_romCycle (r : Request) (d : Option Word) : (s.beat r d).fetch.romCycle = s.fetch.romCycle := rfl
@[simp] theorem State.endRequest_request : s.endRequest.fetch.request = none := rfl
@[simp] theorem State.endRequest_standing : s.endRequest.fetch.standing = s.fetch.standing := rfl
@[simp] theorem State.endRequest_romCycle : s.endRequest.fetch.romCycle = .none := rfl
@[simp] theorem State.setRecords_records (rs : List LogRecord) : (s.setRecords rs).log.records = rs := rfl
@[simp] theorem State.setRecords_nextSequence (rs : List LogRecord) :
    (s.setRecords rs).log.nextSequence = s.log.nextSequence := rfl
@[simp] theorem State.setLoader_loader (l : Loader) : (s.setLoader l).loader = l := rfl

/-- A descriptor read after one is replaced. -/
theorem State.segment_setSegment (h k : Handle) (g : Segment) :
    (s.setSegment h g).segment k = if k = h then g else s.segment k := by
  unfold State.segment State.setSegment
  by_cases e : k = h
  · subst e; simp
  · have : h.val ≠ k.val := fun q => e (Fin.ext q.symm)
    simp [e, this]

end Sys2Proof.Machine
end

