-- ==== Sys2Proof/Laws/Frames.lean ====
section
/-! SUPPORT. The frames of the shared operations: for each, the blocks of State and the fields of patch memory that it
leaves as they were. -/

namespace Sys2Proof.Machine

/-- Two states with the same blocks are the same. -/
theorem State.ext_blocks (s t : State) (h1 : s.pins = t.pins) (h2 : s.fetch = t.fetch) (h3 : s.mem = t.mem)
    (h4 : s.tables = t.tables) (h5 : s.gen = t.gen) (h6 : s.log = t.log) (h7 : s.irq = t.irq) (h8 : s.cmd = t.cmd)
    (h9 : s.loader = t.loader) (h10 : s.divider = t.divider) (h11 : s.windowData = t.windowData)
    (h12 : s.pending = t.pending) : s = t := by
  cases s; cases t; simp_all

section

variable (s : State)

/-! ### unsetPointerOn -/

@[simp] theorem State.unsetPointerOn_pins (h : Handle) : (s.unsetPointerOn h).pins = s.pins := by unfold State.unsetPointerOn; (repeat' split) <;> simp
@[simp] theorem State.unsetPointerOn_fetch (h : Handle) : (s.unsetPointerOn h).fetch = s.fetch := by unfold State.unsetPointerOn; (repeat' split) <;> simp
@[simp] theorem State.unsetPointerOn_tables (h : Handle) : (s.unsetPointerOn h).tables = s.tables := by unfold State.unsetPointerOn; (repeat' split) <;> simp
@[simp] theorem State.unsetPointerOn_gen (h : Handle) : (s.unsetPointerOn h).gen = s.gen := by unfold State.unsetPointerOn; (repeat' split) <;> simp
@[simp] theorem State.unsetPointerOn_log (h : Handle) : (s.unsetPointerOn h).log = s.log := by unfold State.unsetPointerOn; (repeat' split) <;> simp
@[simp] theorem State.unsetPointerOn_irq (h : Handle) : (s.unsetPointerOn h).irq = s.irq := by unfold State.unsetPointerOn; (repeat' split) <;> simp
@[simp] theorem State.unsetPointerOn_cmd (h : Handle) : (s.unsetPointerOn h).cmd = s.cmd := by unfold State.unsetPointerOn; (repeat' split) <;> simp
@[simp] theorem State.unsetPointerOn_loader (h : Handle) : (s.unsetPointerOn h).loader = s.loader := by unfold State.unsetPointerOn; (repeat' split) <;> simp
@[simp] theorem State.unsetPointerOn_divider (h : Handle) : (s.unsetPointerOn h).divider = s.divider := by unfold State.unsetPointerOn; (repeat' split) <;> simp
@[simp] theorem State.unsetPointerOn_windowData (h : Handle) : (s.unsetPointerOn h).windowData = s.windowData := by unfold State.unsetPointerOn; (repeat' split) <;> simp
@[simp] theorem State.unsetPointerOn_pending (h : Handle) : (s.unsetPointerOn h).pending = s.pending := by unfold State.unsetPointerOn; (repeat' split) <;> simp
@[simp] theorem State.unsetPointerOn_ram (h : Handle) : (s.unsetPointerOn h).mem.ram = s.mem.ram := by unfold State.unsetPointerOn; (repeat' split) <;> simp
@[simp] theorem State.unsetPointerOn_segments (h : Handle) : (s.unsetPointerOn h).mem.segments = s.mem.segments := by unfold State.unsetPointerOn; (repeat' split) <;> simp
@[simp] theorem State.unsetPointerOn_writeLatch (h : Handle) : (s.unsetPointerOn h).mem.writeLatch = s.mem.writeLatch := by unfold State.unsetPointerOn; (repeat' split) <;> simp
@[simp] theorem State.unsetPointerOn_dataReject (h : Handle) : (s.unsetPointerOn h).mem.dataReject = s.mem.dataReject := by unfold State.unsetPointerOn; (repeat' split) <;> simp
@[simp] theorem State.unsetPointerOn_crcJob (h : Handle) : (s.unsetPointerOn h).mem.crcJob = s.mem.crcJob := by unfold State.unsetPointerOn; (repeat' split) <;> simp
@[simp] theorem State.unsetPointerOn_arbiter (h : Handle) : (s.unsetPointerOn h).mem.arbiter = s.mem.arbiter := by unfold State.unsetPointerOn; (repeat' split) <;> simp

/-! ### releaseSegment -/

@[simp] theorem State.releaseSegment_pins (h : Handle) : (s.releaseSegment h).pins = s.pins := by simp [State.releaseSegment]
@[simp] theorem State.releaseSegment_fetch (h : Handle) : (s.releaseSegment h).fetch = s.fetch := by simp [State.releaseSegment]
@[simp] theorem State.releaseSegment_tables (h : Handle) : (s.releaseSegment h).tables = s.tables := by simp [State.releaseSegment]
@[simp] theorem State.releaseSegment_gen (h : Handle) : (s.releaseSegment h).gen = s.gen := by simp [State.releaseSegment]
@[simp] theorem State.releaseSegment_log (h : Handle) : (s.releaseSegment h).log = s.log := by simp [State.releaseSegment]
@[simp] theorem State.releaseSegment_irq (h : Handle) : (s.releaseSegment h).irq = s.irq := by simp [State.releaseSegment]
@[simp] theorem State.releaseSegment_cmd (h : Handle) : (s.releaseSegment h).cmd = s.cmd := by simp [State.releaseSegment]
@[simp] theorem State.releaseSegment_loader (h : Handle) : (s.releaseSegment h).loader = s.loader := by simp [State.releaseSegment]
@[simp] theorem State.releaseSegment_divider (h : Handle) : (s.releaseSegment h).divider = s.divider := by simp [State.releaseSegment]
@[simp] theorem State.releaseSegment_windowData (h : Handle) : (s.releaseSegment h).windowData = s.windowData := by simp [State.releaseSegment]
@[simp] theorem State.releaseSegment_pending (h : Handle) : (s.releaseSegment h).pending = s.pending := by simp [State.releaseSegment]
@[simp] theorem State.releaseSegment_ram (h : Handle) : (s.releaseSegment h).mem.ram = s.mem.ram := by simp [State.releaseSegment]
@[simp] theorem State.releaseSegment_writeLatch (h : Handle) : (s.releaseSegment h).mem.writeLatch = s.mem.writeLatch := by simp [State.releaseSegment]
@[simp] theorem State.releaseSegment_dataReject (h : Handle) : (s.releaseSegment h).mem.dataReject = s.mem.dataReject := by simp [State.releaseSegment]
@[simp] theorem State.releaseSegment_crcJob (h : Handle) : (s.releaseSegment h).mem.crcJob = s.mem.crcJob := by simp [State.releaseSegment]
@[simp] theorem State.releaseSegment_arbiter (h : Handle) : (s.releaseSegment h).mem.arbiter = s.mem.arbiter := by simp [State.releaseSegment]

/-! ### freeSegment -/

@[simp] theorem State.freeSegment_pins (h : Handle) : (s.freeSegment h).pins = s.pins := by unfold State.freeSegment; (repeat' split) <;> simp
@[simp] theorem State.freeSegment_fetch (h : Handle) : (s.freeSegment h).fetch = s.fetch := by unfold State.freeSegment; (repeat' split) <;> simp
@[simp] theorem State.freeSegment_tables (h : Handle) : (s.freeSegment h).tables = s.tables := by unfold State.freeSegment; (repeat' split) <;> simp
@[simp] theorem State.freeSegment_gen (h : Handle) : (s.freeSegment h).gen = s.gen := by unfold State.freeSegment; (repeat' split) <;> simp
@[simp] theorem State.freeSegment_log (h : Handle) : (s.freeSegment h).log = s.log := by unfold State.freeSegment; (repeat' split) <;> simp
@[simp] theorem State.freeSegment_irq (h : Handle) : (s.freeSegment h).irq = s.irq := by unfold State.freeSegment; (repeat' split) <;> simp
@[simp] theorem State.freeSegment_cmd (h : Handle) : (s.freeSegment h).cmd = s.cmd := by unfold State.freeSegment; (repeat' split) <;> simp
@[simp] theorem State.freeSegment_loader (h : Handle) : (s.freeSegment h).loader = s.loader := by unfold State.freeSegment; (repeat' split) <;> simp
@[simp] theorem State.freeSegment_divider (h : Handle) : (s.freeSegment h).divider = s.divider := by unfold State.freeSegment; (repeat' split) <;> simp
@[simp] theorem State.freeSegment_windowData (h : Handle) : (s.freeSegment h).windowData = s.windowData := by unfold State.freeSegment; (repeat' split) <;> simp
@[simp] theorem State.freeSegment_pending (h : Handle) : (s.freeSegment h).pending = s.pending := by unfold State.freeSegment; (repeat' split) <;> simp
@[simp] theorem State.freeSegment_ram (h : Handle) : (s.freeSegment h).mem.ram = s.mem.ram := by unfold State.freeSegment; (repeat' split) <;> simp
@[simp] theorem State.freeSegment_writeLatch (h : Handle) : (s.freeSegment h).mem.writeLatch = s.mem.writeLatch := by unfold State.freeSegment; (repeat' split) <;> simp
@[simp] theorem State.freeSegment_dataReject (h : Handle) : (s.freeSegment h).mem.dataReject = s.mem.dataReject := by unfold State.freeSegment; (repeat' split) <;> simp
@[simp] theorem State.freeSegment_crcJob (h : Handle) : (s.freeSegment h).mem.crcJob = s.mem.crcJob := by unfold State.freeSegment; (repeat' split) <;> simp
@[simp] theorem State.freeSegment_arbiter (h : Handle) : (s.freeSegment h).mem.arbiter = s.mem.arbiter := by unfold State.freeSegment; (repeat' split) <;> simp

/-! ### increment -/

@[simp] theorem State.increment_pins (h : Handle) : (s.increment h).pins = s.pins := by unfold State.increment; (repeat' split) <;> simp
@[simp] theorem State.increment_fetch (h : Handle) : (s.increment h).fetch = s.fetch := by unfold State.increment; (repeat' split) <;> simp
@[simp] theorem State.increment_tables (h : Handle) : (s.increment h).tables = s.tables := by unfold State.increment; (repeat' split) <;> simp
@[simp] theorem State.increment_gen (h : Handle) : (s.increment h).gen = s.gen := by unfold State.increment; (repeat' split) <;> simp
@[simp] theorem State.increment_log (h : Handle) : (s.increment h).log = s.log := by unfold State.increment; (repeat' split) <;> simp
@[simp] theorem State.increment_irq (h : Handle) : (s.increment h).irq = s.irq := by unfold State.increment; (repeat' split) <;> simp
@[simp] theorem State.increment_cmd (h : Handle) : (s.increment h).cmd = s.cmd := by unfold State.increment; (repeat' split) <;> simp
@[simp] theorem State.increment_loader (h : Handle) : (s.increment h).loader = s.loader := by unfold State.increment; (repeat' split) <;> simp
@[simp] theorem State.increment_divider (h : Handle) : (s.increment h).divider = s.divider := by unfold State.increment; (repeat' split) <;> simp
@[simp] theorem State.increment_windowData (h : Handle) : (s.increment h).windowData = s.windowData := by unfold State.increment; (repeat' split) <;> simp
@[simp] theorem State.increment_pending (h : Handle) : (s.increment h).pending = s.pending := by unfold State.increment; (repeat' split) <;> simp
@[simp] theorem State.increment_ram (h : Handle) : (s.increment h).mem.ram = s.mem.ram := by unfold State.increment; (repeat' split) <;> simp
@[simp] theorem State.increment_pointer (h : Handle) : (s.increment h).mem.pointer = s.mem.pointer := by unfold State.increment; (repeat' split) <;> simp
@[simp] theorem State.increment_writeLatch (h : Handle) : (s.increment h).mem.writeLatch = s.mem.writeLatch := by unfold State.increment; (repeat' split) <;> simp
@[simp] theorem State.increment_readLatch (h : Handle) : (s.increment h).mem.readLatch = s.mem.readLatch := by unfold State.increment; (repeat' split) <;> simp
@[simp] theorem State.increment_dataReject (h : Handle) : (s.increment h).mem.dataReject = s.mem.dataReject := by unfold State.increment; (repeat' split) <;> simp
@[simp] theorem State.increment_crcJob (h : Handle) : (s.increment h).mem.crcJob = s.mem.crcJob := by unfold State.increment; (repeat' split) <;> simp
@[simp] theorem State.increment_arbiter (h : Handle) : (s.increment h).mem.arbiter = s.mem.arbiter := by unfold State.increment; (repeat' split) <;> simp

/-! ### decrement -/

@[simp] theorem State.decrement_pins (h : Handle) : (s.decrement h).pins = s.pins := by unfold State.decrement; (repeat' split) <;> simp
@[simp] theorem State.decrement_fetch (h : Handle) : (s.decrement h).fetch = s.fetch := by unfold State.decrement; (repeat' split) <;> simp
@[simp] theorem State.decrement_tables (h : Handle) : (s.decrement h).tables = s.tables := by unfold State.decrement; (repeat' split) <;> simp
@[simp] theorem State.decrement_gen (h : Handle) : (s.decrement h).gen = s.gen := by unfold State.decrement; (repeat' split) <;> simp
@[simp] theorem State.decrement_log (h : Handle) : (s.decrement h).log = s.log := by unfold State.decrement; (repeat' split) <;> simp
@[simp] theorem State.decrement_irq (h : Handle) : (s.decrement h).irq = s.irq := by unfold State.decrement; (repeat' split) <;> simp
@[simp] theorem State.decrement_cmd (h : Handle) : (s.decrement h).cmd = s.cmd := by unfold State.decrement; (repeat' split) <;> simp
@[simp] theorem State.decrement_loader (h : Handle) : (s.decrement h).loader = s.loader := by unfold State.decrement; (repeat' split) <;> simp
@[simp] theorem State.decrement_divider (h : Handle) : (s.decrement h).divider = s.divider := by unfold State.decrement; (repeat' split) <;> simp
@[simp] theorem State.decrement_windowData (h : Handle) : (s.decrement h).windowData = s.windowData := by unfold State.decrement; (repeat' split) <;> simp
@[simp] theorem State.decrement_pending (h : Handle) : (s.decrement h).pending = s.pending := by unfold State.decrement; (repeat' split) <;> simp
@[simp] theorem State.decrement_ram (h : Handle) : (s.decrement h).mem.ram = s.mem.ram := by unfold State.decrement; (repeat' split) <;> simp
@[simp] theorem State.decrement_writeLatch (h : Handle) : (s.decrement h).mem.writeLatch = s.mem.writeLatch := by unfold State.decrement; (repeat' split) <;> simp
@[simp] theorem State.decrement_dataReject (h : Handle) : (s.decrement h).mem.dataReject = s.mem.dataReject := by unfold State.decrement; (repeat' split) <;> simp
@[simp] theorem State.decrement_crcJob (h : Handle) : (s.decrement h).mem.crcJob = s.mem.crcJob := by unfold State.decrement; (repeat' split) <;> simp
@[simp] theorem State.decrement_arbiter (h : Handle) : (s.decrement h).mem.arbiter = s.mem.arbiter := by unfold State.decrement; (repeat' split) <;> simp

/-! ### dropEntry -/

@[simp] theorem State.dropEntry_pins (e : Entry) : (s.dropEntry e).pins = s.pins := by unfold State.dropEntry; (repeat' split) <;> simp
@[simp] theorem State.dropEntry_fetch (e : Entry) : (s.dropEntry e).fetch = s.fetch := by unfold State.dropEntry; (repeat' split) <;> simp
@[simp] theorem State.dropEntry_tables (e : Entry) : (s.dropEntry e).tables = s.tables := by unfold State.dropEntry; (repeat' split) <;> simp
@[simp] theorem State.dropEntry_gen (e : Entry) : (s.dropEntry e).gen = s.gen := by unfold State.dropEntry; (repeat' split) <;> simp
@[simp] theorem State.dropEntry_log (e : Entry) : (s.dropEntry e).log = s.log := by unfold State.dropEntry; (repeat' split) <;> simp
@[simp] theorem State.dropEntry_irq (e : Entry) : (s.dropEntry e).irq = s.irq := by unfold State.dropEntry; (repeat' split) <;> simp
@[simp] theorem State.dropEntry_cmd (e : Entry) : (s.dropEntry e).cmd = s.cmd := by unfold State.dropEntry; (repeat' split) <;> simp
@[simp] theorem State.dropEntry_loader (e : Entry) : (s.dropEntry e).loader = s.loader := by unfold State.dropEntry; (repeat' split) <;> simp
@[simp] theorem State.dropEntry_divider (e : Entry) : (s.dropEntry e).divider = s.divider := by unfold State.dropEntry; (repeat' split) <;> simp
@[simp] theorem State.dropEntry_windowData (e : Entry) : (s.dropEntry e).windowData = s.windowData := by unfold State.dropEntry; (repeat' split) <;> simp
@[simp] theorem State.dropEntry_pending (e : Entry) : (s.dropEntry e).pending = s.pending := by unfold State.dropEntry; (repeat' split) <;> simp
@[simp] theorem State.dropEntry_ram (e : Entry) : (s.dropEntry e).mem.ram = s.mem.ram := by unfold State.dropEntry; (repeat' split) <;> simp
@[simp] theorem State.dropEntry_writeLatch (e : Entry) : (s.dropEntry e).mem.writeLatch = s.mem.writeLatch := by unfold State.dropEntry; (repeat' split) <;> simp
@[simp] theorem State.dropEntry_dataReject (e : Entry) : (s.dropEntry e).mem.dataReject = s.mem.dataReject := by unfold State.dropEntry; (repeat' split) <;> simp
@[simp] theorem State.dropEntry_crcJob (e : Entry) : (s.dropEntry e).mem.crcJob = s.mem.crcJob := by unfold State.dropEntry; (repeat' split) <;> simp
@[simp] theorem State.dropEntry_arbiter (e : Entry) : (s.dropEntry e).mem.arbiter = s.mem.arbiter := by unfold State.dropEntry; (repeat' split) <;> simp

/-! ### addEntry -/

@[simp] theorem State.addEntry_pins (e : Entry) : (s.addEntry e).pins = s.pins := by unfold State.addEntry; (repeat' split) <;> simp
@[simp] theorem State.addEntry_fetch (e : Entry) : (s.addEntry e).fetch = s.fetch := by unfold State.addEntry; (repeat' split) <;> simp
@[simp] theorem State.addEntry_tables (e : Entry) : (s.addEntry e).tables = s.tables := by unfold State.addEntry; (repeat' split) <;> simp
@[simp] theorem State.addEntry_gen (e : Entry) : (s.addEntry e).gen = s.gen := by unfold State.addEntry; (repeat' split) <;> simp
@[simp] theorem State.addEntry_log (e : Entry) : (s.addEntry e).log = s.log := by unfold State.addEntry; (repeat' split) <;> simp
@[simp] theorem State.addEntry_irq (e : Entry) : (s.addEntry e).irq = s.irq := by unfold State.addEntry; (repeat' split) <;> simp
@[simp] theorem State.addEntry_cmd (e : Entry) : (s.addEntry e).cmd = s.cmd := by unfold State.addEntry; (repeat' split) <;> simp
@[simp] theorem State.addEntry_loader (e : Entry) : (s.addEntry e).loader = s.loader := by unfold State.addEntry; (repeat' split) <;> simp
@[simp] theorem State.addEntry_divider (e : Entry) : (s.addEntry e).divider = s.divider := by unfold State.addEntry; (repeat' split) <;> simp
@[simp] theorem State.addEntry_windowData (e : Entry) : (s.addEntry e).windowData = s.windowData := by unfold State.addEntry; (repeat' split) <;> simp
@[simp] theorem State.addEntry_pending (e : Entry) : (s.addEntry e).pending = s.pending := by unfold State.addEntry; (repeat' split) <;> simp
@[simp] theorem State.addEntry_ram (e : Entry) : (s.addEntry e).mem.ram = s.mem.ram := by unfold State.addEntry; (repeat' split) <;> simp
@[simp] theorem State.addEntry_pointer (e : Entry) : (s.addEntry e).mem.pointer = s.mem.pointer := by unfold State.addEntry; (repeat' split) <;> simp
@[simp] theorem State.addEntry_writeLatch (e : Entry) : (s.addEntry e).mem.writeLatch = s.mem.writeLatch := by unfold State.addEntry; (repeat' split) <;> simp
@[simp] theorem State.addEntry_readLatch (e : Entry) : (s.addEntry e).mem.readLatch = s.mem.readLatch := by unfold State.addEntry; (repeat' split) <;> simp
@[simp] theorem State.addEntry_dataReject (e : Entry) : (s.addEntry e).mem.dataReject = s.mem.dataReject := by unfold State.addEntry; (repeat' split) <;> simp
@[simp] theorem State.addEntry_crcJob (e : Entry) : (s.addEntry e).mem.crcJob = s.mem.crcJob := by unfold State.addEntry; (repeat' split) <;> simp
@[simp] theorem State.addEntry_arbiter (e : Entry) : (s.addEntry e).mem.arbiter = s.mem.arbiter := by unfold State.addEntry; (repeat' split) <;> simp

/-! ### dropEntries -/

@[simp] theorem State.dropEntries_pins (es : List Entry) : (s.dropEntries es).pins = s.pins := by induction es generalizing s with | nil => rfl | cons e es ih => exact (ih (s.dropEntry e)).trans (by simp)
@[simp] theorem State.dropEntries_fetch (es : List Entry) : (s.dropEntries es).fetch = s.fetch := by induction es generalizing s with | nil => rfl | cons e es ih => exact (ih (s.dropEntry e)).trans (by simp)
@[simp] theorem State.dropEntries_tables (es : List Entry) : (s.dropEntries es).tables = s.tables := by induction es generalizing s with | nil => rfl | cons e es ih => exact (ih (s.dropEntry e)).trans (by simp)
@[simp] theorem State.dropEntries_gen (es : List Entry) : (s.dropEntries es).gen = s.gen := by induction es generalizing s with | nil => rfl | cons e es ih => exact (ih (s.dropEntry e)).trans (by simp)
@[simp] theorem State.dropEntries_log (es : List Entry) : (s.dropEntries es).log = s.log := by induction es generalizing s with | nil => rfl | cons e es ih => exact (ih (s.dropEntry e)).trans (by simp)
@[simp] theorem State.dropEntries_irq (es : List Entry) : (s.dropEntries es).irq = s.irq := by induction es generalizing s with | nil => rfl | cons e es ih => exact (ih (s.dropEntry e)).trans (by simp)
@[simp] theorem State.dropEntries_cmd (es : List Entry) : (s.dropEntries es).cmd = s.cmd := by induction es generalizing s with | nil => rfl | cons e es ih => exact (ih (s.dropEntry e)).trans (by simp)
@[simp] theorem State.dropEntries_loader (es : List Entry) : (s.dropEntries es).loader = s.loader := by induction es generalizing s with | nil => rfl | cons e es ih => exact (ih (s.dropEntry e)).trans (by simp)
@[simp] theorem State.dropEntries_divider (es : List Entry) : (s.dropEntries es).divider = s.divider := by induction es generalizing s with | nil => rfl | cons e es ih => exact (ih (s.dropEntry e)).trans (by simp)
@[simp] theorem State.dropEntries_windowData (es : List Entry) : (s.dropEntries es).windowData = s.windowData := by induction es generalizing s with | nil => rfl | cons e es ih => exact (ih (s.dropEntry e)).trans (by simp)
@[simp] theorem State.dropEntries_pending (es : List Entry) : (s.dropEntries es).pending = s.pending := by induction es generalizing s with | nil => rfl | cons e es ih => exact (ih (s.dropEntry e)).trans (by simp)
@[simp] theorem State.dropEntries_ram (es : List Entry) : (s.dropEntries es).mem.ram = s.mem.ram := by induction es generalizing s with | nil => rfl | cons e es ih => exact (ih (s.dropEntry e)).trans (by simp)
@[simp] theorem State.dropEntries_writeLatch (es : List Entry) : (s.dropEntries es).mem.writeLatch = s.mem.writeLatch := by induction es generalizing s with | nil => rfl | cons e es ih => exact (ih (s.dropEntry e)).trans (by simp)
@[simp] theorem State.dropEntries_dataReject (es : List Entry) : (s.dropEntries es).mem.dataReject = s.mem.dataReject := by induction es generalizing s with | nil => rfl | cons e es ih => exact (ih (s.dropEntry e)).trans (by simp)
@[simp] theorem State.dropEntries_crcJob (es : List Entry) : (s.dropEntries es).mem.crcJob = s.mem.crcJob := by induction es generalizing s with | nil => rfl | cons e es ih => exact (ih (s.dropEntry e)).trans (by simp)
@[simp] theorem State.dropEntries_arbiter (es : List Entry) : (s.dropEntries es).mem.arbiter = s.mem.arbiter := by induction es generalizing s with | nil => rfl | cons e es ih => exact (ih (s.dropEntry e)).trans (by simp)

/-! ### addEntries -/

@[simp] theorem State.addEntries_pins (es : List Entry) : (s.addEntries es).pins = s.pins := by induction es generalizing s with | nil => rfl | cons e es ih => exact (ih (s.addEntry e)).trans (by simp)
@[simp] theorem State.addEntries_fetch (es : List Entry) : (s.addEntries es).fetch = s.fetch := by induction es generalizing s with | nil => rfl | cons e es ih => exact (ih (s.addEntry e)).trans (by simp)
@[simp] theorem State.addEntries_tables (es : List Entry) : (s.addEntries es).tables = s.tables := by induction es generalizing s with | nil => rfl | cons e es ih => exact (ih (s.addEntry e)).trans (by simp)
@[simp] theorem State.addEntries_gen (es : List Entry) : (s.addEntries es).gen = s.gen := by induction es generalizing s with | nil => rfl | cons e es ih => exact (ih (s.addEntry e)).trans (by simp)
@[simp] theorem State.addEntries_log (es : List Entry) : (s.addEntries es).log = s.log := by induction es generalizing s with | nil => rfl | cons e es ih => exact (ih (s.addEntry e)).trans (by simp)
@[simp] theorem State.addEntries_irq (es : List Entry) : (s.addEntries es).irq = s.irq := by induction es generalizing s with | nil => rfl | cons e es ih => exact (ih (s.addEntry e)).trans (by simp)
@[simp] theorem State.addEntries_cmd (es : List Entry) : (s.addEntries es).cmd = s.cmd := by induction es generalizing s with | nil => rfl | cons e es ih => exact (ih (s.addEntry e)).trans (by simp)
@[simp] theorem State.addEntries_loader (es : List Entry) : (s.addEntries es).loader = s.loader := by induction es generalizing s with | nil => rfl | cons e es ih => exact (ih (s.addEntry e)).trans (by simp)
@[simp] theorem State.addEntries_divider (es : List Entry) : (s.addEntries es).divider = s.divider := by induction es generalizing s with | nil => rfl | cons e es ih => exact (ih (s.addEntry e)).trans (by simp)
@[simp] theorem State.addEntries_windowData (es : List Entry) : (s.addEntries es).windowData = s.windowData := by induction es generalizing s with | nil => rfl | cons e es ih => exact (ih (s.addEntry e)).trans (by simp)
@[simp] theorem State.addEntries_pending (es : List Entry) : (s.addEntries es).pending = s.pending := by induction es generalizing s with | nil => rfl | cons e es ih => exact (ih (s.addEntry e)).trans (by simp)
@[simp] theorem State.addEntries_ram (es : List Entry) : (s.addEntries es).mem.ram = s.mem.ram := by induction es generalizing s with | nil => rfl | cons e es ih => exact (ih (s.addEntry e)).trans (by simp)
@[simp] theorem State.addEntries_pointer (es : List Entry) : (s.addEntries es).mem.pointer = s.mem.pointer := by induction es generalizing s with | nil => rfl | cons e es ih => exact (ih (s.addEntry e)).trans (by simp)
@[simp] theorem State.addEntries_writeLatch (es : List Entry) : (s.addEntries es).mem.writeLatch = s.mem.writeLatch := by induction es generalizing s with | nil => rfl | cons e es ih => exact (ih (s.addEntry e)).trans (by simp)
@[simp] theorem State.addEntries_readLatch (es : List Entry) : (s.addEntries es).mem.readLatch = s.mem.readLatch := by induction es generalizing s with | nil => rfl | cons e es ih => exact (ih (s.addEntry e)).trans (by simp)
@[simp] theorem State.addEntries_dataReject (es : List Entry) : (s.addEntries es).mem.dataReject = s.mem.dataReject := by induction es generalizing s with | nil => rfl | cons e es ih => exact (ih (s.addEntry e)).trans (by simp)
@[simp] theorem State.addEntries_crcJob (es : List Entry) : (s.addEntries es).mem.crcJob = s.mem.crcJob := by induction es generalizing s with | nil => rfl | cons e es ih => exact (ih (s.addEntry e)).trans (by simp)
@[simp] theorem State.addEntries_arbiter (es : List Entry) : (s.addEntries es).mem.arbiter = s.mem.arbiter := by induction es generalizing s with | nil => rfl | cons e es ih => exact (ih (s.addEntry e)).trans (by simp)

/-! ### handOver -/

@[simp] theorem State.handOver_pins (x : Handover) : (s.handOver x).pins = s.pins := by unfold State.handOver; (repeat' split) <;> simp [State.raise]
@[simp] theorem State.handOver_fetch (x : Handover) : (s.handOver x).fetch = s.fetch := by unfold State.handOver; (repeat' split) <;> simp [State.raise]
@[simp] theorem State.handOver_mem (x : Handover) : (s.handOver x).mem = s.mem := by unfold State.handOver; (repeat' split) <;> simp [State.raise]
@[simp] theorem State.handOver_tables (x : Handover) : (s.handOver x).tables = s.tables := by unfold State.handOver; (repeat' split) <;> simp [State.raise]
@[simp] theorem State.handOver_gen (x : Handover) : (s.handOver x).gen = s.gen := by unfold State.handOver; (repeat' split) <;> simp [State.raise]
@[simp] theorem State.handOver_cmd (x : Handover) : (s.handOver x).cmd = s.cmd := by unfold State.handOver; (repeat' split) <;> simp [State.raise]
@[simp] theorem State.handOver_loader (x : Handover) : (s.handOver x).loader = s.loader := by unfold State.handOver; (repeat' split) <;> simp [State.raise]
@[simp] theorem State.handOver_divider (x : Handover) : (s.handOver x).divider = s.divider := by unfold State.handOver; (repeat' split) <;> simp [State.raise]
@[simp] theorem State.handOver_windowData (x : Handover) : (s.handOver x).windowData = s.windowData := by unfold State.handOver; (repeat' split) <;> simp [State.raise]
@[simp] theorem State.handOver_pending (x : Handover) : (s.handOver x).pending = s.pending := by unfold State.handOver; (repeat' split) <;> simp [State.raise]

/-! ### placeEntry -/

@[simp] theorem State.placeEntry_pins (e : Entry) (i : Nat) : (s.placeEntry e i).pins = s.pins := by simp [State.placeEntry]
@[simp] theorem State.placeEntry_fetch (e : Entry) (i : Nat) : (s.placeEntry e i).fetch = s.fetch := by simp [State.placeEntry]
@[simp] theorem State.placeEntry_gen (e : Entry) (i : Nat) : (s.placeEntry e i).gen = s.gen := by simp [State.placeEntry]
@[simp] theorem State.placeEntry_log (e : Entry) (i : Nat) : (s.placeEntry e i).log = s.log := by simp [State.placeEntry]
@[simp] theorem State.placeEntry_irq (e : Entry) (i : Nat) : (s.placeEntry e i).irq = s.irq := by simp [State.placeEntry]
@[simp] theorem State.placeEntry_cmd (e : Entry) (i : Nat) : (s.placeEntry e i).cmd = s.cmd := by simp [State.placeEntry]
@[simp] theorem State.placeEntry_loader (e : Entry) (i : Nat) : (s.placeEntry e i).loader = s.loader := by simp [State.placeEntry]
@[simp] theorem State.placeEntry_divider (e : Entry) (i : Nat) : (s.placeEntry e i).divider = s.divider := by simp [State.placeEntry]
@[simp] theorem State.placeEntry_windowData (e : Entry) (i : Nat) : (s.placeEntry e i).windowData = s.windowData := by simp [State.placeEntry]
@[simp] theorem State.placeEntry_pending (e : Entry) (i : Nat) : (s.placeEntry e i).pending = s.pending := by simp [State.placeEntry]
@[simp] theorem State.placeEntry_ram (e : Entry) (i : Nat) : (s.placeEntry e i).mem.ram = s.mem.ram := by simp [State.placeEntry]
@[simp] theorem State.placeEntry_pointer (e : Entry) (i : Nat) : (s.placeEntry e i).mem.pointer = s.mem.pointer := by simp [State.placeEntry]
@[simp] theorem State.placeEntry_writeLatch (e : Entry) (i : Nat) : (s.placeEntry e i).mem.writeLatch = s.mem.writeLatch := by simp [State.placeEntry]
@[simp] theorem State.placeEntry_readLatch (e : Entry) (i : Nat) : (s.placeEntry e i).mem.readLatch = s.mem.readLatch := by simp [State.placeEntry]
@[simp] theorem State.placeEntry_dataReject (e : Entry) (i : Nat) : (s.placeEntry e i).mem.dataReject = s.mem.dataReject := by simp [State.placeEntry]
@[simp] theorem State.placeEntry_crcJob (e : Entry) (i : Nat) : (s.placeEntry e i).mem.crcJob = s.mem.crcJob := by simp [State.placeEntry]
@[simp] theorem State.placeEntry_arbiter (e : Entry) (i : Nat) : (s.placeEntry e i).mem.arbiter = s.mem.arbiter := by simp [State.placeEntry]

/-! ### removeEntry -/

@[simp] theorem State.removeEntry_pins (e : Entry) (i : Nat) : (s.removeEntry e i).pins = s.pins := by simp [State.removeEntry]
@[simp] theorem State.removeEntry_fetch (e : Entry) (i : Nat) : (s.removeEntry e i).fetch = s.fetch := by simp [State.removeEntry]
@[simp] theorem State.removeEntry_gen (e : Entry) (i : Nat) : (s.removeEntry e i).gen = s.gen := by simp [State.removeEntry]
@[simp] theorem State.removeEntry_log (e : Entry) (i : Nat) : (s.removeEntry e i).log = s.log := by simp [State.removeEntry]
@[simp] theorem State.removeEntry_irq (e : Entry) (i : Nat) : (s.removeEntry e i).irq = s.irq := by simp [State.removeEntry]
@[simp] theorem State.removeEntry_cmd (e : Entry) (i : Nat) : (s.removeEntry e i).cmd = s.cmd := by simp [State.removeEntry]
@[simp] theorem State.removeEntry_loader (e : Entry) (i : Nat) : (s.removeEntry e i).loader = s.loader := by simp [State.removeEntry]
@[simp] theorem State.removeEntry_divider (e : Entry) (i : Nat) : (s.removeEntry e i).divider = s.divider := by simp [State.removeEntry]
@[simp] theorem State.removeEntry_windowData (e : Entry) (i : Nat) : (s.removeEntry e i).windowData = s.windowData := by simp [State.removeEntry]
@[simp] theorem State.removeEntry_pending (e : Entry) (i : Nat) : (s.removeEntry e i).pending = s.pending := by simp [State.removeEntry]
@[simp] theorem State.removeEntry_ram (e : Entry) (i : Nat) : (s.removeEntry e i).mem.ram = s.mem.ram := by simp [State.removeEntry]
@[simp] theorem State.removeEntry_writeLatch (e : Entry) (i : Nat) : (s.removeEntry e i).mem.writeLatch = s.mem.writeLatch := by simp [State.removeEntry]
@[simp] theorem State.removeEntry_dataReject (e : Entry) (i : Nat) : (s.removeEntry e i).mem.dataReject = s.mem.dataReject := by simp [State.removeEntry]
@[simp] theorem State.removeEntry_crcJob (e : Entry) (i : Nat) : (s.removeEntry e i).mem.crcJob = s.mem.crcJob := by simp [State.removeEntry]
@[simp] theorem State.removeEntry_arbiter (e : Entry) (i : Nat) : (s.removeEntry e i).mem.arbiter = s.mem.arbiter := by simp [State.removeEntry]

/-! ### clearStaged -/

@[simp] theorem State.clearStaged_pins : (s.clearStaged).pins = s.pins := by simp [State.clearStaged]
@[simp] theorem State.clearStaged_fetch : (s.clearStaged).fetch = s.fetch := by simp [State.clearStaged]
@[simp] theorem State.clearStaged_gen : (s.clearStaged).gen = s.gen := by simp [State.clearStaged]
@[simp] theorem State.clearStaged_log : (s.clearStaged).log = s.log := by simp [State.clearStaged]
@[simp] theorem State.clearStaged_irq : (s.clearStaged).irq = s.irq := by simp [State.clearStaged]
@[simp] theorem State.clearStaged_cmd : (s.clearStaged).cmd = s.cmd := by simp [State.clearStaged]
@[simp] theorem State.clearStaged_loader : (s.clearStaged).loader = s.loader := by simp [State.clearStaged]
@[simp] theorem State.clearStaged_divider : (s.clearStaged).divider = s.divider := by simp [State.clearStaged]
@[simp] theorem State.clearStaged_windowData : (s.clearStaged).windowData = s.windowData := by simp [State.clearStaged]
@[simp] theorem State.clearStaged_pending : (s.clearStaged).pending = s.pending := by simp [State.clearStaged]
@[simp] theorem State.clearStaged_ram : (s.clearStaged).mem.ram = s.mem.ram := by simp [State.clearStaged]
@[simp] theorem State.clearStaged_writeLatch : (s.clearStaged).mem.writeLatch = s.mem.writeLatch := by simp [State.clearStaged]
@[simp] theorem State.clearStaged_dataReject : (s.clearStaged).mem.dataReject = s.mem.dataReject := by simp [State.clearStaged]
@[simp] theorem State.clearStaged_crcJob : (s.clearStaged).mem.crcJob = s.mem.crcJob := by simp [State.clearStaged]
@[simp] theorem State.clearStaged_arbiter : (s.clearStaged).mem.arbiter = s.mem.arbiter := by simp [State.clearStaged]

/-! ### copyLive -/

@[simp] theorem State.copyLive_pins : (s.copyLive).pins = s.pins := by simp [State.copyLive]
@[simp] theorem State.copyLive_fetch : (s.copyLive).fetch = s.fetch := by simp [State.copyLive]
@[simp] theorem State.copyLive_gen : (s.copyLive).gen = s.gen := by simp [State.copyLive]
@[simp] theorem State.copyLive_log : (s.copyLive).log = s.log := by simp [State.copyLive]
@[simp] theorem State.copyLive_irq : (s.copyLive).irq = s.irq := by simp [State.copyLive]
@[simp] theorem State.copyLive_cmd : (s.copyLive).cmd = s.cmd := by simp [State.copyLive]
@[simp] theorem State.copyLive_loader : (s.copyLive).loader = s.loader := by simp [State.copyLive]
@[simp] theorem State.copyLive_divider : (s.copyLive).divider = s.divider := by simp [State.copyLive]
@[simp] theorem State.copyLive_windowData : (s.copyLive).windowData = s.windowData := by simp [State.copyLive]
@[simp] theorem State.copyLive_pending : (s.copyLive).pending = s.pending := by simp [State.copyLive]
@[simp] theorem State.copyLive_ram : (s.copyLive).mem.ram = s.mem.ram := by simp [State.copyLive]
@[simp] theorem State.copyLive_writeLatch : (s.copyLive).mem.writeLatch = s.mem.writeLatch := by simp [State.copyLive]
@[simp] theorem State.copyLive_dataReject : (s.copyLive).mem.dataReject = s.mem.dataReject := by simp [State.copyLive]
@[simp] theorem State.copyLive_crcJob : (s.copyLive).mem.crcJob = s.mem.crcJob := by simp [State.copyLive]
@[simp] theorem State.copyLive_arbiter : (s.copyLive).mem.arbiter = s.mem.arbiter := by simp [State.copyLive]

/-! ### switchTables -/

@[simp] theorem State.switchTables_pins (n : Generation) : (s.switchTables n).pins = s.pins := by simp [State.switchTables]
@[simp] theorem State.switchTables_fetch (n : Generation) : (s.switchTables n).fetch = s.fetch := by simp [State.switchTables]
@[simp] theorem State.switchTables_gen (n : Generation) : (s.switchTables n).gen = s.gen := by simp [State.switchTables]
@[simp] theorem State.switchTables_log (n : Generation) : (s.switchTables n).log = s.log := by simp [State.switchTables]
@[simp] theorem State.switchTables_irq (n : Generation) : (s.switchTables n).irq = s.irq := by simp [State.switchTables]
@[simp] theorem State.switchTables_cmd (n : Generation) : (s.switchTables n).cmd = s.cmd := by simp [State.switchTables]
@[simp] theorem State.switchTables_loader (n : Generation) : (s.switchTables n).loader = s.loader := by simp [State.switchTables]
@[simp] theorem State.switchTables_divider (n : Generation) : (s.switchTables n).divider = s.divider := by simp [State.switchTables]
@[simp] theorem State.switchTables_windowData (n : Generation) : (s.switchTables n).windowData = s.windowData := by simp [State.switchTables]
@[simp] theorem State.switchTables_pending (n : Generation) : (s.switchTables n).pending = s.pending := by simp [State.switchTables]
@[simp] theorem State.switchTables_ram (n : Generation) : (s.switchTables n).mem.ram = s.mem.ram := by simp [State.switchTables]
@[simp] theorem State.switchTables_writeLatch (n : Generation) : (s.switchTables n).mem.writeLatch = s.mem.writeLatch := by simp [State.switchTables]
@[simp] theorem State.switchTables_dataReject (n : Generation) : (s.switchTables n).mem.dataReject = s.mem.dataReject := by simp [State.switchTables]
@[simp] theorem State.switchTables_crcJob (n : Generation) : (s.switchTables n).mem.crcJob = s.mem.crcJob := by simp [State.switchTables]
@[simp] theorem State.switchTables_arbiter (n : Generation) : (s.switchTables n).mem.arbiter = s.mem.arbiter := by simp [State.switchTables]

/-! ### revertTables -/

@[simp] theorem State.revertTables_pins : (s.revertTables).pins = s.pins := by unfold State.revertTables; (repeat' split) <;> simp
@[simp] theorem State.revertTables_fetch : (s.revertTables).fetch = s.fetch := by unfold State.revertTables; (repeat' split) <;> simp
@[simp] theorem State.revertTables_mem : (s.revertTables).mem = s.mem := by unfold State.revertTables; (repeat' split) <;> simp
@[simp] theorem State.revertTables_gen : (s.revertTables).gen = s.gen := by unfold State.revertTables; (repeat' split) <;> simp
@[simp] theorem State.revertTables_log : (s.revertTables).log = s.log := by unfold State.revertTables; (repeat' split) <;> simp
@[simp] theorem State.revertTables_irq : (s.revertTables).irq = s.irq := by unfold State.revertTables; (repeat' split) <;> simp
@[simp] theorem State.revertTables_cmd : (s.revertTables).cmd = s.cmd := by unfold State.revertTables; (repeat' split) <;> simp
@[simp] theorem State.revertTables_loader : (s.revertTables).loader = s.loader := by unfold State.revertTables; (repeat' split) <;> simp
@[simp] theorem State.revertTables_divider : (s.revertTables).divider = s.divider := by unfold State.revertTables; (repeat' split) <;> simp
@[simp] theorem State.revertTables_windowData : (s.revertTables).windowData = s.windowData := by unfold State.revertTables; (repeat' split) <;> simp
@[simp] theorem State.revertTables_pending : (s.revertTables).pending = s.pending := by unfold State.revertTables; (repeat' split) <;> simp

/-! ### takeSwitch -/

@[simp] theorem State.takeSwitch_pins (c : PendingCommit) : (s.takeSwitch c).pins = s.pins := by simp [State.takeSwitch]
@[simp] theorem State.takeSwitch_fetch (c : PendingCommit) : (s.takeSwitch c).fetch = s.fetch := by simp [State.takeSwitch]
@[simp] theorem State.takeSwitch_log (c : PendingCommit) : (s.takeSwitch c).log = s.log := by simp [State.takeSwitch]
@[simp] theorem State.takeSwitch_cmd (c : PendingCommit) : (s.takeSwitch c).cmd = s.cmd := by simp [State.takeSwitch]
@[simp] theorem State.takeSwitch_loader (c : PendingCommit) : (s.takeSwitch c).loader = s.loader := by simp [State.takeSwitch]
@[simp] theorem State.takeSwitch_divider (c : PendingCommit) : (s.takeSwitch c).divider = s.divider := by simp [State.takeSwitch]
@[simp] theorem State.takeSwitch_windowData (c : PendingCommit) : (s.takeSwitch c).windowData = s.windowData := by simp [State.takeSwitch]
@[simp] theorem State.takeSwitch_pending (c : PendingCommit) : (s.takeSwitch c).pending = s.pending := by simp [State.takeSwitch]
@[simp] theorem State.takeSwitch_ram (c : PendingCommit) : (s.takeSwitch c).mem.ram = s.mem.ram := by simp [State.takeSwitch]
@[simp] theorem State.takeSwitch_writeLatch (c : PendingCommit) : (s.takeSwitch c).mem.writeLatch = s.mem.writeLatch := by simp [State.takeSwitch]
@[simp] theorem State.takeSwitch_dataReject (c : PendingCommit) : (s.takeSwitch c).mem.dataReject = s.mem.dataReject := by simp [State.takeSwitch]
@[simp] theorem State.takeSwitch_crcJob (c : PendingCommit) : (s.takeSwitch c).mem.crcJob = s.mem.crcJob := by simp [State.takeSwitch]
@[simp] theorem State.takeSwitch_arbiter (c : PendingCommit) : (s.takeSwitch c).mem.arbiter = s.mem.arbiter := by simp [State.takeSwitch]

/-! ### takeRevert -/

@[simp] theorem State.takeRevert_pins (o : RevertOrigin) : (s.takeRevert o).pins = s.pins := by unfold State.takeRevert; cases o <;> simp
@[simp] theorem State.takeRevert_fetch (o : RevertOrigin) : (s.takeRevert o).fetch = s.fetch := by unfold State.takeRevert; cases o <;> simp
@[simp] theorem State.takeRevert_mem (o : RevertOrigin) : (s.takeRevert o).mem = s.mem := by unfold State.takeRevert; cases o <;> simp
@[simp] theorem State.takeRevert_log (o : RevertOrigin) : (s.takeRevert o).log = s.log := by unfold State.takeRevert; cases o <;> simp
@[simp] theorem State.takeRevert_loader (o : RevertOrigin) : (s.takeRevert o).loader = s.loader := by unfold State.takeRevert; cases o <;> simp
@[simp] theorem State.takeRevert_divider (o : RevertOrigin) : (s.takeRevert o).divider = s.divider := by unfold State.takeRevert; cases o <;> simp
@[simp] theorem State.takeRevert_windowData (o : RevertOrigin) : (s.takeRevert o).windowData = s.windowData := by unfold State.takeRevert; cases o <;> simp
@[simp] theorem State.takeRevert_pending (o : RevertOrigin) : (s.takeRevert o).pending = s.pending := by unfold State.takeRevert; cases o <;> simp

/-! ### takeMovement -/

@[simp] theorem State.takeMovement_pins : (s.takeMovement).pins = s.pins := by unfold State.takeMovement; (repeat' split) <;> simp
@[simp] theorem State.takeMovement_fetch : (s.takeMovement).fetch = s.fetch := by unfold State.takeMovement; (repeat' split) <;> simp
@[simp] theorem State.takeMovement_log : (s.takeMovement).log = s.log := by unfold State.takeMovement; (repeat' split) <;> simp
@[simp] theorem State.takeMovement_loader : (s.takeMovement).loader = s.loader := by unfold State.takeMovement; (repeat' split) <;> simp
@[simp] theorem State.takeMovement_divider : (s.takeMovement).divider = s.divider := by unfold State.takeMovement; (repeat' split) <;> simp
@[simp] theorem State.takeMovement_windowData : (s.takeMovement).windowData = s.windowData := by unfold State.takeMovement; (repeat' split) <;> simp
@[simp] theorem State.takeMovement_pending : (s.takeMovement).pending = s.pending := by unfold State.takeMovement; (repeat' split) <;> simp
@[simp] theorem State.takeMovement_ram : (s.takeMovement).mem.ram = s.mem.ram := by unfold State.takeMovement; (repeat' split) <;> simp
@[simp] theorem State.takeMovement_writeLatch : (s.takeMovement).mem.writeLatch = s.mem.writeLatch := by unfold State.takeMovement; (repeat' split) <;> simp
@[simp] theorem State.takeMovement_dataReject : (s.takeMovement).mem.dataReject = s.mem.dataReject := by unfold State.takeMovement; (repeat' split) <;> simp
@[simp] theorem State.takeMovement_crcJob : (s.takeMovement).mem.crcJob = s.mem.crcJob := by unfold State.takeMovement; (repeat' split) <;> simp
@[simp] theorem State.takeMovement_arbiter : (s.takeMovement).mem.arbiter = s.mem.arbiter := by unfold State.takeMovement; (repeat' split) <;> simp

/-! ### tickTrial -/

@[simp] theorem State.tickTrial_pins : (s.tickTrial).pins = s.pins := by unfold State.tickTrial; (repeat' split) <;> simp
@[simp] theorem State.tickTrial_fetch : (s.tickTrial).fetch = s.fetch := by unfold State.tickTrial; (repeat' split) <;> simp
@[simp] theorem State.tickTrial_mem : (s.tickTrial).mem = s.mem := by unfold State.tickTrial; (repeat' split) <;> simp
@[simp] theorem State.tickTrial_tables : (s.tickTrial).tables = s.tables := by unfold State.tickTrial; (repeat' split) <;> simp
@[simp] theorem State.tickTrial_log : (s.tickTrial).log = s.log := by unfold State.tickTrial; (repeat' split) <;> simp
@[simp] theorem State.tickTrial_irq : (s.tickTrial).irq = s.irq := by unfold State.tickTrial; (repeat' split) <;> simp
@[simp] theorem State.tickTrial_cmd : (s.tickTrial).cmd = s.cmd := by unfold State.tickTrial; (repeat' split) <;> simp
@[simp] theorem State.tickTrial_loader : (s.tickTrial).loader = s.loader := by unfold State.tickTrial; (repeat' split) <;> simp
@[simp] theorem State.tickTrial_divider : (s.tickTrial).divider = s.divider := by unfold State.tickTrial; (repeat' split) <;> simp
@[simp] theorem State.tickTrial_windowData : (s.tickTrial).windowData = s.windowData := by unfold State.tickTrial; (repeat' split) <;> simp
@[simp] theorem State.tickTrial_pending : (s.tickTrial).pending = s.pending := by unfold State.tickTrial; (repeat' split) <;> simp

/-! ### countReset -/

@[simp] theorem State.countReset_pins : (s.countReset).pins = s.pins := by unfold State.countReset; split <;> rfl
@[simp] theorem State.countReset_fetch : (s.countReset).fetch = s.fetch := by unfold State.countReset; split <;> rfl
@[simp] theorem State.countReset_mem : (s.countReset).mem = s.mem := by unfold State.countReset; split <;> rfl
@[simp] theorem State.countReset_tables : (s.countReset).tables = s.tables := by unfold State.countReset; split <;> rfl
@[simp] theorem State.countReset_log : (s.countReset).log = s.log := by unfold State.countReset; split <;> rfl
@[simp] theorem State.countReset_irq : (s.countReset).irq = s.irq := by unfold State.countReset; split <;> rfl
@[simp] theorem State.countReset_cmd : (s.countReset).cmd = s.cmd := by unfold State.countReset; split <;> rfl
@[simp] theorem State.countReset_loader : (s.countReset).loader = s.loader := by unfold State.countReset; split <;> rfl
@[simp] theorem State.countReset_divider : (s.countReset).divider = s.divider := by unfold State.countReset; split <;> rfl
@[simp] theorem State.countReset_windowData : (s.countReset).windowData = s.windowData := by unfold State.countReset; split <;> rfl
@[simp] theorem State.countReset_pending : (s.countReset).pending = s.pending := by unfold State.countReset; split <;> rfl

/-! ### targetResetGen -/

@[simp] theorem State.targetResetGen_pins : (s.targetResetGen).pins = s.pins := by unfold State.targetResetGen; (repeat' split) <;> simp
@[simp] theorem State.targetResetGen_fetch : (s.targetResetGen).fetch = s.fetch := by unfold State.targetResetGen; (repeat' split) <;> simp
@[simp] theorem State.targetResetGen_log : (s.targetResetGen).log = s.log := by unfold State.targetResetGen; (repeat' split) <;> simp
@[simp] theorem State.targetResetGen_cmd : (s.targetResetGen).cmd = s.cmd := by unfold State.targetResetGen; (repeat' split) <;> simp
@[simp] theorem State.targetResetGen_loader : (s.targetResetGen).loader = s.loader := by unfold State.targetResetGen; (repeat' split) <;> simp
@[simp] theorem State.targetResetGen_divider : (s.targetResetGen).divider = s.divider := by unfold State.targetResetGen; (repeat' split) <;> simp
@[simp] theorem State.targetResetGen_windowData : (s.targetResetGen).windowData = s.windowData := by unfold State.targetResetGen; (repeat' split) <;> simp
@[simp] theorem State.targetResetGen_pending : (s.targetResetGen).pending = s.pending := by unfold State.targetResetGen; (repeat' split) <;> simp
@[simp] theorem State.targetResetGen_ram : (s.targetResetGen).mem.ram = s.mem.ram := by unfold State.targetResetGen; (repeat' split) <;> simp
@[simp] theorem State.targetResetGen_writeLatch : (s.targetResetGen).mem.writeLatch = s.mem.writeLatch := by unfold State.targetResetGen; (repeat' split) <;> simp
@[simp] theorem State.targetResetGen_dataReject : (s.targetResetGen).mem.dataReject = s.mem.dataReject := by unfold State.targetResetGen; (repeat' split) <;> simp
@[simp] theorem State.targetResetGen_crcJob : (s.targetResetGen).mem.crcJob = s.mem.crcJob := by unfold State.targetResetGen; (repeat' split) <;> simp
@[simp] theorem State.targetResetGen_arbiter : (s.targetResetGen).mem.arbiter = s.mem.arbiter := by unfold State.targetResetGen; (repeat' split) <;> simp

/-! ### countResolution -/

@[simp] theorem State.countResolution_pins (x : Resolution) : (s.countResolution x).pins = s.pins := by unfold State.countResolution; (repeat' split) <;> simp
@[simp] theorem State.countResolution_fetch (x : Resolution) : (s.countResolution x).fetch = s.fetch := by unfold State.countResolution; (repeat' split) <;> simp
@[simp] theorem State.countResolution_mem (x : Resolution) : (s.countResolution x).mem = s.mem := by unfold State.countResolution; (repeat' split) <;> simp
@[simp] theorem State.countResolution_gen (x : Resolution) : (s.countResolution x).gen = s.gen := by unfold State.countResolution; (repeat' split) <;> simp
@[simp] theorem State.countResolution_log (x : Resolution) : (s.countResolution x).log = s.log := by unfold State.countResolution; (repeat' split) <;> simp
@[simp] theorem State.countResolution_irq (x : Resolution) : (s.countResolution x).irq = s.irq := by unfold State.countResolution; (repeat' split) <;> simp
@[simp] theorem State.countResolution_cmd (x : Resolution) : (s.countResolution x).cmd = s.cmd := by unfold State.countResolution; (repeat' split) <;> simp
@[simp] theorem State.countResolution_loader (x : Resolution) : (s.countResolution x).loader = s.loader := by unfold State.countResolution; (repeat' split) <;> simp
@[simp] theorem State.countResolution_divider (x : Resolution) : (s.countResolution x).divider = s.divider := by unfold State.countResolution; (repeat' split) <;> simp
@[simp] theorem State.countResolution_windowData (x : Resolution) : (s.countResolution x).windowData = s.windowData := by unfold State.countResolution; (repeat' split) <;> simp
@[simp] theorem State.countResolution_pending (x : Resolution) : (s.countResolution x).pending = s.pending := by unfold State.countResolution; (repeat' split) <;> simp

/-! ### logTrap -/

@[simp] theorem State.logTrap_pins (r : Request) (x : Resolution) : (s.logTrap r x).pins = s.pins := by unfold State.logTrap; (repeat' split) <;> simp
@[simp] theorem State.logTrap_fetch (r : Request) (x : Resolution) : (s.logTrap r x).fetch = s.fetch := by unfold State.logTrap; (repeat' split) <;> simp
@[simp] theorem State.logTrap_mem (r : Request) (x : Resolution) : (s.logTrap r x).mem = s.mem := by unfold State.logTrap; (repeat' split) <;> simp
@[simp] theorem State.logTrap_tables (r : Request) (x : Resolution) : (s.logTrap r x).tables = s.tables := by unfold State.logTrap; (repeat' split) <;> simp
@[simp] theorem State.logTrap_gen (r : Request) (x : Resolution) : (s.logTrap r x).gen = s.gen := by unfold State.logTrap; (repeat' split) <;> simp
@[simp] theorem State.logTrap_cmd (r : Request) (x : Resolution) : (s.logTrap r x).cmd = s.cmd := by unfold State.logTrap; (repeat' split) <;> simp
@[simp] theorem State.logTrap_loader (r : Request) (x : Resolution) : (s.logTrap r x).loader = s.loader := by unfold State.logTrap; (repeat' split) <;> simp
@[simp] theorem State.logTrap_divider (r : Request) (x : Resolution) : (s.logTrap r x).divider = s.divider := by unfold State.logTrap; (repeat' split) <;> simp
@[simp] theorem State.logTrap_windowData (r : Request) (x : Resolution) : (s.logTrap r x).windowData = s.windowData := by unfold State.logTrap; (repeat' split) <;> simp
@[simp] theorem State.logTrap_pending (r : Request) (x : Resolution) : (s.logTrap r x).pending = s.pending := by unfold State.logTrap; (repeat' split) <;> simp

/-! ### deliver -/

@[simp] theorem State.deliver_pins (r : Request) (w : Word) : (s.deliver r w).pins = s.pins := by simp [State.deliver]
@[simp] theorem State.deliver_mem (r : Request) (w : Word) : (s.deliver r w).mem = s.mem := by simp [State.deliver]
@[simp] theorem State.deliver_gen (r : Request) (w : Word) : (s.deliver r w).gen = s.gen := by simp [State.deliver]
@[simp] theorem State.deliver_cmd (r : Request) (w : Word) : (s.deliver r w).cmd = s.cmd := by simp [State.deliver]
@[simp] theorem State.deliver_loader (r : Request) (w : Word) : (s.deliver r w).loader = s.loader := by simp [State.deliver]
@[simp] theorem State.deliver_divider (r : Request) (w : Word) : (s.deliver r w).divider = s.divider := by simp [State.deliver]
@[simp] theorem State.deliver_windowData (r : Request) (w : Word) : (s.deliver r w).windowData = s.windowData := by simp [State.deliver]
@[simp] theorem State.deliver_pending (r : Request) (w : Word) : (s.deliver r w).pending = s.pending := by simp [State.deliver]

/-! ### logShadow -/

@[simp] theorem State.logShadow_pins (r : Request) (w : Word) : (s.logShadow r w).pins = s.pins := by unfold State.logShadow; (repeat' split) <;> simp
@[simp] theorem State.logShadow_fetch (r : Request) (w : Word) : (s.logShadow r w).fetch = s.fetch := by unfold State.logShadow; (repeat' split) <;> simp
@[simp] theorem State.logShadow_mem (r : Request) (w : Word) : (s.logShadow r w).mem = s.mem := by unfold State.logShadow; (repeat' split) <;> simp
@[simp] theorem State.logShadow_tables (r : Request) (w : Word) : (s.logShadow r w).tables = s.tables := by unfold State.logShadow; (repeat' split) <;> simp
@[simp] theorem State.logShadow_gen (r : Request) (w : Word) : (s.logShadow r w).gen = s.gen := by unfold State.logShadow; (repeat' split) <;> simp
@[simp] theorem State.logShadow_cmd (r : Request) (w : Word) : (s.logShadow r w).cmd = s.cmd := by unfold State.logShadow; (repeat' split) <;> simp
@[simp] theorem State.logShadow_loader (r : Request) (w : Word) : (s.logShadow r w).loader = s.loader := by unfold State.logShadow; (repeat' split) <;> simp
@[simp] theorem State.logShadow_divider (r : Request) (w : Word) : (s.logShadow r w).divider = s.divider := by unfold State.logShadow; (repeat' split) <;> simp
@[simp] theorem State.logShadow_windowData (r : Request) (w : Word) : (s.logShadow r w).windowData = s.windowData := by unfold State.logShadow; (repeat' split) <;> simp
@[simp] theorem State.logShadow_pending (r : Request) (w : Word) : (s.logShadow r w).pending = s.pending := by unfold State.logShadow; (repeat' split) <;> simp

/-! ### nextWrite -/

@[simp] theorem State.nextWrite_pins (w : Word) : (s.nextWrite w).pins = s.pins := by unfold State.nextWrite; (repeat' split) <;> simp
@[simp] theorem State.nextWrite_mem (w : Word) : (s.nextWrite w).mem = s.mem := by unfold State.nextWrite; (repeat' split) <;> simp
@[simp] theorem State.nextWrite_tables (w : Word) : (s.nextWrite w).tables = s.tables := by unfold State.nextWrite; (repeat' split) <;> simp
@[simp] theorem State.nextWrite_gen (w : Word) : (s.nextWrite w).gen = s.gen := by unfold State.nextWrite; (repeat' split) <;> simp
@[simp] theorem State.nextWrite_log (w : Word) : (s.nextWrite w).log = s.log := by unfold State.nextWrite; (repeat' split) <;> simp
@[simp] theorem State.nextWrite_irq (w : Word) : (s.nextWrite w).irq = s.irq := by unfold State.nextWrite; (repeat' split) <;> simp
@[simp] theorem State.nextWrite_cmd (w : Word) : (s.nextWrite w).cmd = s.cmd := by unfold State.nextWrite; (repeat' split) <;> simp
@[simp] theorem State.nextWrite_loader (w : Word) : (s.nextWrite w).loader = s.loader := by unfold State.nextWrite; (repeat' split) <;> simp
@[simp] theorem State.nextWrite_divider (w : Word) : (s.nextWrite w).divider = s.divider := by unfold State.nextWrite; (repeat' split) <;> simp
@[simp] theorem State.nextWrite_windowData (w : Word) : (s.nextWrite w).windowData = s.windowData := by unfold State.nextWrite; (repeat' split) <;> simp
@[simp] theorem State.nextWrite_pending (w : Word) : (s.nextWrite w).pending = s.pending := by unfold State.nextWrite; (repeat' split) <;> simp

/-! ### switchAtAccept -/

@[simp] theorem State.switchAtAccept_pins (p : Presentation) : (s.switchAtAccept p).pins = s.pins := by unfold State.switchAtAccept; (repeat' split) <;> simp
@[simp] theorem State.switchAtAccept_fetch (p : Presentation) : (s.switchAtAccept p).fetch = s.fetch := by unfold State.switchAtAccept; (repeat' split) <;> simp
@[simp] theorem State.switchAtAccept_log (p : Presentation) : (s.switchAtAccept p).log = s.log := by unfold State.switchAtAccept; (repeat' split) <;> simp
@[simp] theorem State.switchAtAccept_cmd (p : Presentation) : (s.switchAtAccept p).cmd = s.cmd := by unfold State.switchAtAccept; (repeat' split) <;> simp
@[simp] theorem State.switchAtAccept_loader (p : Presentation) : (s.switchAtAccept p).loader = s.loader := by unfold State.switchAtAccept; (repeat' split) <;> simp
@[simp] theorem State.switchAtAccept_divider (p : Presentation) : (s.switchAtAccept p).divider = s.divider := by unfold State.switchAtAccept; (repeat' split) <;> simp
@[simp] theorem State.switchAtAccept_windowData (p : Presentation) : (s.switchAtAccept p).windowData = s.windowData := by unfold State.switchAtAccept; (repeat' split) <;> simp
@[simp] theorem State.switchAtAccept_pending (p : Presentation) : (s.switchAtAccept p).pending = s.pending := by unfold State.switchAtAccept; (repeat' split) <;> simp
@[simp] theorem State.switchAtAccept_ram (p : Presentation) : (s.switchAtAccept p).mem.ram = s.mem.ram := by unfold State.switchAtAccept; (repeat' split) <;> simp
@[simp] theorem State.switchAtAccept_writeLatch (p : Presentation) : (s.switchAtAccept p).mem.writeLatch = s.mem.writeLatch := by unfold State.switchAtAccept; (repeat' split) <;> simp
@[simp] theorem State.switchAtAccept_dataReject (p : Presentation) : (s.switchAtAccept p).mem.dataReject = s.mem.dataReject := by unfold State.switchAtAccept; (repeat' split) <;> simp
@[simp] theorem State.switchAtAccept_crcJob (p : Presentation) : (s.switchAtAccept p).mem.crcJob = s.mem.crcJob := by unfold State.switchAtAccept; (repeat' split) <;> simp
@[simp] theorem State.switchAtAccept_arbiter (p : Presentation) : (s.switchAtAccept p).mem.arbiter = s.mem.arbiter := by unfold State.switchAtAccept; (repeat' split) <;> simp

end


/-- Starting the access of a word changes the fetch port and the arbiter only. -/
theorem startWord_only (s : State) :
    ∃ f a, s.startWord = { s with fetch := f, mem := { s.mem with arbiter := a } } := by
  unfold State.startWord
  (repeat' split) <;> exact ⟨_, _, rfl⟩

/-- Serving words changes the fetch port, the hits of LIVE, the log, the pending set and the arbiter only. -/
theorem serve_only (n : Nat) (s : State) :
    ∃ f t l i a, serve n s =
      { s with fetch := f, tables := t, log := l, irq := i, mem := { s.mem with arbiter := a } } := by
  induction n generalizing s with
  | zero => exact ⟨_, _, _, _, _, rfl⟩
  | succ n ih =>
    have d : ∀ r w, ∃ f t l i, s.deliver r w = { s with fetch := f, tables := t, log := l, irq := i } := by
      intro r w
      refine ⟨(s.deliver r w).fetch, (s.deliver r w).tables, (s.deliver r w).log, (s.deliver r w).irq, ?_⟩
      apply State.ext_blocks <;> simp
    unfold serve
    split
    · exact ⟨_, _, _, _, _, rfl⟩
    · split
      · obtain ⟨f, a, e⟩ := startWord_only s; exact ⟨f, _, _, _, a, e⟩
      · obtain ⟨f, a, e⟩ := startWord_only s; exact ⟨f, _, _, _, a, e⟩
      · obtain ⟨f, a, e⟩ := startWord_only s; exact ⟨f, _, _, _, a, e⟩
      · obtain ⟨f, t, l, i, e⟩ := d _ _; rw [e]; obtain ⟨f', t', l', i', a, e'⟩ := ih _; exact ⟨f', t', l', i', a, e'⟩
      · obtain ⟨f, t, l, i, e⟩ := d _ _; rw [e]; obtain ⟨f', t', l', i', a, e'⟩ := ih _; exact ⟨f', t', l', i', a, e'⟩

section

variable (s : State)

/-! ### startWord -/

@[simp] theorem State.startWord_pins : s.startWord.pins = s.pins := by obtain ⟨f, a, e⟩ := startWord_only s; rw [e]
@[simp] theorem State.startWord_tables : s.startWord.tables = s.tables := by obtain ⟨f, a, e⟩ := startWord_only s; rw [e]
@[simp] theorem State.startWord_gen : s.startWord.gen = s.gen := by obtain ⟨f, a, e⟩ := startWord_only s; rw [e]
@[simp] theorem State.startWord_log : s.startWord.log = s.log := by obtain ⟨f, a, e⟩ := startWord_only s; rw [e]
@[simp] theorem State.startWord_irq : s.startWord.irq = s.irq := by obtain ⟨f, a, e⟩ := startWord_only s; rw [e]
@[simp] theorem State.startWord_cmd : s.startWord.cmd = s.cmd := by obtain ⟨f, a, e⟩ := startWord_only s; rw [e]
@[simp] theorem State.startWord_loader : s.startWord.loader = s.loader := by obtain ⟨f, a, e⟩ := startWord_only s; rw [e]
@[simp] theorem State.startWord_divider : s.startWord.divider = s.divider := by obtain ⟨f, a, e⟩ := startWord_only s; rw [e]
@[simp] theorem State.startWord_windowData : s.startWord.windowData = s.windowData := by obtain ⟨f, a, e⟩ := startWord_only s; rw [e]
@[simp] theorem State.startWord_pending : s.startWord.pending = s.pending := by obtain ⟨f, a, e⟩ := startWord_only s; rw [e]
@[simp] theorem State.startWord_ram : s.startWord.mem.ram = s.mem.ram := by obtain ⟨f, a, e⟩ := startWord_only s; rw [e]
@[simp] theorem State.startWord_segments : s.startWord.mem.segments = s.mem.segments := by obtain ⟨f, a, e⟩ := startWord_only s; rw [e]
@[simp] theorem State.startWord_pointer : s.startWord.mem.pointer = s.mem.pointer := by obtain ⟨f, a, e⟩ := startWord_only s; rw [e]
@[simp] theorem State.startWord_writeLatch : s.startWord.mem.writeLatch = s.mem.writeLatch := by obtain ⟨f, a, e⟩ := startWord_only s; rw [e]
@[simp] theorem State.startWord_readLatch : s.startWord.mem.readLatch = s.mem.readLatch := by obtain ⟨f, a, e⟩ := startWord_only s; rw [e]
@[simp] theorem State.startWord_dataReject : s.startWord.mem.dataReject = s.mem.dataReject := by obtain ⟨f, a, e⟩ := startWord_only s; rw [e]
@[simp] theorem State.startWord_crcJob : s.startWord.mem.crcJob = s.mem.crcJob := by obtain ⟨f, a, e⟩ := startWord_only s; rw [e]
@[simp] theorem State.startWord_standing : s.startWord.fetch.standing = s.fetch.standing := by unfold State.startWord; (repeat' split) <;> rfl
@[simp] theorem State.startWord_request : s.startWord.fetch.request = s.fetch.request := by unfold State.startWord; (repeat' split) <;> rfl

end

section

variable (s : State) (n : Nat)

@[simp] theorem serve_pins : (serve n s).pins = s.pins := by
  obtain ⟨f, t, l, i, a, e⟩ := serve_only n s; rw [e]
@[simp] theorem serve_gen : (serve n s).gen = s.gen := by
  obtain ⟨f, t, l, i, a, e⟩ := serve_only n s; rw [e]
@[simp] theorem serve_cmd : (serve n s).cmd = s.cmd := by
  obtain ⟨f, t, l, i, a, e⟩ := serve_only n s; rw [e]
@[simp] theorem serve_loader : (serve n s).loader = s.loader := by
  obtain ⟨f, t, l, i, a, e⟩ := serve_only n s; rw [e]
@[simp] theorem serve_divider : (serve n s).divider = s.divider := by
  obtain ⟨f, t, l, i, a, e⟩ := serve_only n s; rw [e]
@[simp] theorem serve_windowData : (serve n s).windowData = s.windowData := by
  obtain ⟨f, t, l, i, a, e⟩ := serve_only n s; rw [e]
@[simp] theorem serve_pending : (serve n s).pending = s.pending := by
  obtain ⟨f, t, l, i, a, e⟩ := serve_only n s; rw [e]
@[simp] theorem serve_ram : (serve n s).mem.ram = s.mem.ram := by
  obtain ⟨f, t, l, i, a, e⟩ := serve_only n s; rw [e]
@[simp] theorem serve_segments : (serve n s).mem.segments = s.mem.segments := by
  obtain ⟨f, t, l, i, a, e⟩ := serve_only n s; rw [e]
@[simp] theorem serve_pointer : (serve n s).mem.pointer = s.mem.pointer := by
  obtain ⟨f, t, l, i, a, e⟩ := serve_only n s; rw [e]
@[simp] theorem serve_writeLatch : (serve n s).mem.writeLatch = s.mem.writeLatch := by
  obtain ⟨f, t, l, i, a, e⟩ := serve_only n s; rw [e]
@[simp] theorem serve_readLatch : (serve n s).mem.readLatch = s.mem.readLatch := by
  obtain ⟨f, t, l, i, a, e⟩ := serve_only n s; rw [e]
@[simp] theorem serve_dataReject : (serve n s).mem.dataReject = s.mem.dataReject := by
  obtain ⟨f, t, l, i, a, e⟩ := serve_only n s; rw [e]
@[simp] theorem serve_crcJob : (serve n s).mem.crcJob = s.mem.crcJob := by
  obtain ⟨f, t, l, i, a, e⟩ := serve_only n s; rw [e]

end

section

variable (s : State)

/-! ### accept -/

@[simp] theorem State.accept_pins (p : Presentation) : (s.accept p).pins = s.pins := by unfold State.accept; dsimp only; (repeat' split) <;> simp
@[simp] theorem State.accept_cmd (p : Presentation) : (s.accept p).cmd = s.cmd := by unfold State.accept; dsimp only; (repeat' split) <;> simp
@[simp] theorem State.accept_loader (p : Presentation) : (s.accept p).loader = s.loader := by unfold State.accept; dsimp only; (repeat' split) <;> simp
@[simp] theorem State.accept_divider (p : Presentation) : (s.accept p).divider = s.divider := by unfold State.accept; dsimp only; (repeat' split) <;> simp
@[simp] theorem State.accept_windowData (p : Presentation) : (s.accept p).windowData = s.windowData := by unfold State.accept; dsimp only; (repeat' split) <;> simp
@[simp] theorem State.accept_pending (p : Presentation) : (s.accept p).pending = s.pending := by unfold State.accept; dsimp only; (repeat' split) <;> simp
@[simp] theorem State.accept_ram (p : Presentation) : (s.accept p).mem.ram = s.mem.ram := by unfold State.accept; dsimp only; (repeat' split) <;> simp
@[simp] theorem State.accept_writeLatch (p : Presentation) : (s.accept p).mem.writeLatch = s.mem.writeLatch := by unfold State.accept; dsimp only; (repeat' split) <;> simp
@[simp] theorem State.accept_dataReject (p : Presentation) : (s.accept p).mem.dataReject = s.mem.dataReject := by unfold State.accept; dsimp only; (repeat' split) <;> simp
@[simp] theorem State.accept_crcJob (p : Presentation) : (s.accept p).mem.crcJob = s.mem.crcJob := by unfold State.accept; dsimp only; (repeat' split) <;> simp

/-! ### acceptStanding -/

@[simp] theorem State.acceptStanding_pins : (s.acceptStanding).pins = s.pins := by unfold State.acceptStanding; (repeat' split) <;> simp
@[simp] theorem State.acceptStanding_cmd : (s.acceptStanding).cmd = s.cmd := by unfold State.acceptStanding; (repeat' split) <;> simp
@[simp] theorem State.acceptStanding_loader : (s.acceptStanding).loader = s.loader := by unfold State.acceptStanding; (repeat' split) <;> simp
@[simp] theorem State.acceptStanding_divider : (s.acceptStanding).divider = s.divider := by unfold State.acceptStanding; (repeat' split) <;> simp
@[simp] theorem State.acceptStanding_windowData : (s.acceptStanding).windowData = s.windowData := by unfold State.acceptStanding; (repeat' split) <;> simp
@[simp] theorem State.acceptStanding_pending : (s.acceptStanding).pending = s.pending := by unfold State.acceptStanding; (repeat' split) <;> simp
@[simp] theorem State.acceptStanding_ram : (s.acceptStanding).mem.ram = s.mem.ram := by unfold State.acceptStanding; (repeat' split) <;> simp
@[simp] theorem State.acceptStanding_writeLatch : (s.acceptStanding).mem.writeLatch = s.mem.writeLatch := by unfold State.acceptStanding; (repeat' split) <;> simp
@[simp] theorem State.acceptStanding_dataReject : (s.acceptStanding).mem.dataReject = s.mem.dataReject := by unfold State.acceptStanding; (repeat' split) <;> simp
@[simp] theorem State.acceptStanding_crcJob : (s.acceptStanding).mem.crcJob = s.mem.crcJob := by unfold State.acceptStanding; (repeat' split) <;> simp

/-! ### acceptOrBegin -/

@[simp] theorem State.acceptOrBegin_pins : s.acceptOrBegin.pins = s.pins := by unfold State.acceptOrBegin; split <;> simp
@[simp] theorem State.acceptOrBegin_cmd : s.acceptOrBegin.cmd = s.cmd := by unfold State.acceptOrBegin; split <;> simp
@[simp] theorem State.acceptOrBegin_loader : s.acceptOrBegin.loader = s.loader := by unfold State.acceptOrBegin; split <;> simp
@[simp] theorem State.acceptOrBegin_divider : s.acceptOrBegin.divider = s.divider := by unfold State.acceptOrBegin; split <;> simp
@[simp] theorem State.acceptOrBegin_windowData : s.acceptOrBegin.windowData = s.windowData := by unfold State.acceptOrBegin; split <;> simp
@[simp] theorem State.acceptOrBegin_pending : s.acceptOrBegin.pending = s.pending := by unfold State.acceptOrBegin; split <;> simp
@[simp] theorem State.acceptOrBegin_ram : s.acceptOrBegin.mem.ram = s.mem.ram := by unfold State.acceptOrBegin; split <;> simp
@[simp] theorem State.acceptOrBegin_writeLatch : s.acceptOrBegin.mem.writeLatch = s.mem.writeLatch := by unfold State.acceptOrBegin; split <;> simp
@[simp] theorem State.acceptOrBegin_dataReject : s.acceptOrBegin.mem.dataReject = s.mem.dataReject := by unfold State.acceptOrBegin; split <;> simp
@[simp] theorem State.acceptOrBegin_crcJob : s.acceptOrBegin.mem.crcJob = s.mem.crcJob := by unfold State.acceptOrBegin; split <;> simp

/-! ### settle -/

@[simp] theorem State.settle_pins : (s.settle).pins = s.pins := by unfold State.settle; split <;> simp
@[simp] theorem State.settle_fetch : (s.settle).fetch = s.fetch := by unfold State.settle; split <;> simp
@[simp] theorem State.settle_log : (s.settle).log = s.log := by unfold State.settle; split <;> simp
@[simp] theorem State.settle_loader : (s.settle).loader = s.loader := by unfold State.settle; split <;> simp
@[simp] theorem State.settle_divider : (s.settle).divider = s.divider := by unfold State.settle; split <;> simp
@[simp] theorem State.settle_windowData : (s.settle).windowData = s.windowData := by unfold State.settle; split <;> simp
@[simp] theorem State.settle_pending : (s.settle).pending = s.pending := by unfold State.settle; split <;> simp
@[simp] theorem State.settle_ram : (s.settle).mem.ram = s.mem.ram := by unfold State.settle; split <;> simp
@[simp] theorem State.settle_writeLatch : (s.settle).mem.writeLatch = s.mem.writeLatch := by unfold State.settle; split <;> simp
@[simp] theorem State.settle_dataReject : (s.settle).mem.dataReject = s.mem.dataReject := by unfold State.settle; split <;> simp
@[simp] theorem State.settle_crcJob : (s.settle).mem.crcJob = s.mem.crcJob := by unfold State.settle; split <;> simp
@[simp] theorem State.settle_arbiter : (s.settle).mem.arbiter = s.mem.arbiter := by unfold State.settle; split <;> simp

/-! ### acceptOpen -/

@[simp] theorem State.acceptOpen_pins : (s.acceptOpen).pins = s.pins := by unfold State.acceptOpen; split <;> simp
@[simp] theorem State.acceptOpen_loader : (s.acceptOpen).loader = s.loader := by unfold State.acceptOpen; split <;> simp
@[simp] theorem State.acceptOpen_divider : (s.acceptOpen).divider = s.divider := by unfold State.acceptOpen; split <;> simp
@[simp] theorem State.acceptOpen_windowData : (s.acceptOpen).windowData = s.windowData := by unfold State.acceptOpen; split <;> simp
@[simp] theorem State.acceptOpen_pending : (s.acceptOpen).pending = s.pending := by unfold State.acceptOpen; split <;> simp
@[simp] theorem State.acceptOpen_ram : (s.acceptOpen).mem.ram = s.mem.ram := by unfold State.acceptOpen; split <;> simp
@[simp] theorem State.acceptOpen_writeLatch : (s.acceptOpen).mem.writeLatch = s.mem.writeLatch := by unfold State.acceptOpen; split <;> simp
@[simp] theorem State.acceptOpen_dataReject : (s.acceptOpen).mem.dataReject = s.mem.dataReject := by unfold State.acceptOpen; split <;> simp
@[simp] theorem State.acceptOpen_crcJob : (s.acceptOpen).mem.crcJob = s.mem.crcJob := by unfold State.acceptOpen; split <;> simp

/-! ### moveFirst -/

@[simp] theorem State.moveFirst_pins : (s.moveFirst).pins = s.pins := by unfold State.moveFirst; split <;> simp
@[simp] theorem State.moveFirst_fetch : (s.moveFirst).fetch = s.fetch := by unfold State.moveFirst; split <;> simp
@[simp] theorem State.moveFirst_log : (s.moveFirst).log = s.log := by unfold State.moveFirst; split <;> simp
@[simp] theorem State.moveFirst_loader : (s.moveFirst).loader = s.loader := by unfold State.moveFirst; split <;> simp
@[simp] theorem State.moveFirst_divider : (s.moveFirst).divider = s.divider := by unfold State.moveFirst; split <;> simp
@[simp] theorem State.moveFirst_windowData : (s.moveFirst).windowData = s.windowData := by unfold State.moveFirst; split <;> simp
@[simp] theorem State.moveFirst_pending : (s.moveFirst).pending = s.pending := by unfold State.moveFirst; split <;> simp
@[simp] theorem State.moveFirst_ram : (s.moveFirst).mem.ram = s.mem.ram := by unfold State.moveFirst; split <;> simp
@[simp] theorem State.moveFirst_writeLatch : (s.moveFirst).mem.writeLatch = s.mem.writeLatch := by unfold State.moveFirst; split <;> simp
@[simp] theorem State.moveFirst_dataReject : (s.moveFirst).mem.dataReject = s.mem.dataReject := by unfold State.moveFirst; split <;> simp
@[simp] theorem State.moveFirst_crcJob : (s.moveFirst).mem.crcJob = s.mem.crcJob := by unfold State.moveFirst; split <;> simp
@[simp] theorem State.moveFirst_arbiter : (s.moveFirst).mem.arbiter = s.mem.arbiter := by unfold State.moveFirst; split <;> simp

/-! ### tick -/

@[simp] theorem State.tick_pins : (s.tick).pins = s.pins := by unfold State.tick; dsimp only; split <;> simp
@[simp] theorem State.tick_loader : (s.tick).loader = s.loader := by unfold State.tick; dsimp only; split <;> simp
@[simp] theorem State.tick_windowData : (s.tick).windowData = s.windowData := by unfold State.tick; dsimp only; split <;> simp
@[simp] theorem State.tick_pending : (s.tick).pending = s.pending := by unfold State.tick; dsimp only; split <;> simp
@[simp] theorem State.tick_ram : (s.tick).mem.ram = s.mem.ram := by unfold State.tick; dsimp only; split <;> simp
@[simp] theorem State.tick_writeLatch : (s.tick).mem.writeLatch = s.mem.writeLatch := by unfold State.tick; dsimp only; split <;> simp
@[simp] theorem State.tick_dataReject : (s.tick).mem.dataReject = s.mem.dataReject := by unfold State.tick; dsimp only; split <;> simp
@[simp] theorem State.tick_crcJob : (s.tick).mem.crcJob = s.mem.crcJob := by unfold State.tick; dsimp only; split <;> simp

/-! ### freeMap -/

@[simp] theorem State.freeMap_pins : (s.freeMap).pins = s.pins := by unfold State.freeMap; generalize s.loader.segmentMap = l; induction l generalizing s with | nil => rfl | cons e es ih => exact (ih (s.freeSegment e)).trans (by simp)
@[simp] theorem State.freeMap_fetch : (s.freeMap).fetch = s.fetch := by unfold State.freeMap; generalize s.loader.segmentMap = l; induction l generalizing s with | nil => rfl | cons e es ih => exact (ih (s.freeSegment e)).trans (by simp)
@[simp] theorem State.freeMap_tables : (s.freeMap).tables = s.tables := by unfold State.freeMap; generalize s.loader.segmentMap = l; induction l generalizing s with | nil => rfl | cons e es ih => exact (ih (s.freeSegment e)).trans (by simp)
@[simp] theorem State.freeMap_gen : (s.freeMap).gen = s.gen := by unfold State.freeMap; generalize s.loader.segmentMap = l; induction l generalizing s with | nil => rfl | cons e es ih => exact (ih (s.freeSegment e)).trans (by simp)
@[simp] theorem State.freeMap_log : (s.freeMap).log = s.log := by unfold State.freeMap; generalize s.loader.segmentMap = l; induction l generalizing s with | nil => rfl | cons e es ih => exact (ih (s.freeSegment e)).trans (by simp)
@[simp] theorem State.freeMap_irq : (s.freeMap).irq = s.irq := by unfold State.freeMap; generalize s.loader.segmentMap = l; induction l generalizing s with | nil => rfl | cons e es ih => exact (ih (s.freeSegment e)).trans (by simp)
@[simp] theorem State.freeMap_cmd : (s.freeMap).cmd = s.cmd := by unfold State.freeMap; generalize s.loader.segmentMap = l; induction l generalizing s with | nil => rfl | cons e es ih => exact (ih (s.freeSegment e)).trans (by simp)
@[simp] theorem State.freeMap_loader : (s.freeMap).loader = s.loader := by unfold State.freeMap; generalize s.loader.segmentMap = l; induction l generalizing s with | nil => rfl | cons e es ih => exact (ih (s.freeSegment e)).trans (by simp)
@[simp] theorem State.freeMap_divider : (s.freeMap).divider = s.divider := by unfold State.freeMap; generalize s.loader.segmentMap = l; induction l generalizing s with | nil => rfl | cons e es ih => exact (ih (s.freeSegment e)).trans (by simp)
@[simp] theorem State.freeMap_windowData : (s.freeMap).windowData = s.windowData := by unfold State.freeMap; generalize s.loader.segmentMap = l; induction l generalizing s with | nil => rfl | cons e es ih => exact (ih (s.freeSegment e)).trans (by simp)
@[simp] theorem State.freeMap_pending : (s.freeMap).pending = s.pending := by unfold State.freeMap; generalize s.loader.segmentMap = l; induction l generalizing s with | nil => rfl | cons e es ih => exact (ih (s.freeSegment e)).trans (by simp)
@[simp] theorem State.freeMap_ram : (s.freeMap).mem.ram = s.mem.ram := by unfold State.freeMap; generalize s.loader.segmentMap = l; induction l generalizing s with | nil => rfl | cons e es ih => exact (ih (s.freeSegment e)).trans (by simp)
@[simp] theorem State.freeMap_writeLatch : (s.freeMap).mem.writeLatch = s.mem.writeLatch := by unfold State.freeMap; generalize s.loader.segmentMap = l; induction l generalizing s with | nil => rfl | cons e es ih => exact (ih (s.freeSegment e)).trans (by simp)
@[simp] theorem State.freeMap_dataReject : (s.freeMap).mem.dataReject = s.mem.dataReject := by unfold State.freeMap; generalize s.loader.segmentMap = l; induction l generalizing s with | nil => rfl | cons e es ih => exact (ih (s.freeSegment e)).trans (by simp)
@[simp] theorem State.freeMap_crcJob : (s.freeMap).mem.crcJob = s.mem.crcJob := by unfold State.freeMap; generalize s.loader.segmentMap = l; induction l generalizing s with | nil => rfl | cons e es ih => exact (ih (s.freeSegment e)).trans (by simp)
@[simp] theorem State.freeMap_arbiter : (s.freeMap).mem.arbiter = s.mem.arbiter := by unfold State.freeMap; generalize s.loader.segmentMap = l; induction l generalizing s with | nil => rfl | cons e es ih => exact (ih (s.freeSegment e)).trans (by simp)

/-! ### rollback -/

@[simp] theorem State.rollback_pins : (s.rollback).pins = s.pins := by simp [State.rollback, PatchMemory.rollback]
@[simp] theorem State.rollback_fetch : (s.rollback).fetch = s.fetch := by simp [State.rollback, PatchMemory.rollback]
@[simp] theorem State.rollback_log : (s.rollback).log = s.log := by simp [State.rollback, PatchMemory.rollback]
@[simp] theorem State.rollback_irq : (s.rollback).irq = s.irq := by simp [State.rollback, PatchMemory.rollback]
@[simp] theorem State.rollback_cmd : (s.rollback).cmd = s.cmd := by simp [State.rollback, PatchMemory.rollback]
@[simp] theorem State.rollback_divider : (s.rollback).divider = s.divider := by simp [State.rollback, PatchMemory.rollback]
@[simp] theorem State.rollback_windowData : (s.rollback).windowData = s.windowData := by simp [State.rollback, PatchMemory.rollback]
@[simp] theorem State.rollback_pending : (s.rollback).pending = s.pending := by simp [State.rollback, PatchMemory.rollback]
@[simp] theorem State.rollback_ram : (s.rollback).mem.ram = s.mem.ram := by simp [State.rollback, PatchMemory.rollback]

/-! ### fallBack -/

@[simp] theorem State.fallBack_pins : (s.fallBack).pins = s.pins := by unfold State.fallBack; (repeat' split) <;> simp
@[simp] theorem State.fallBack_fetch : (s.fallBack).fetch = s.fetch := by unfold State.fallBack; (repeat' split) <;> simp
@[simp] theorem State.fallBack_mem : (s.fallBack).mem = s.mem := by unfold State.fallBack; (repeat' split) <;> simp
@[simp] theorem State.fallBack_tables : (s.fallBack).tables = s.tables := by unfold State.fallBack; (repeat' split) <;> simp
@[simp] theorem State.fallBack_gen : (s.fallBack).gen = s.gen := by unfold State.fallBack; (repeat' split) <;> simp
@[simp] theorem State.fallBack_log : (s.fallBack).log = s.log := by unfold State.fallBack; (repeat' split) <;> simp
@[simp] theorem State.fallBack_cmd : (s.fallBack).cmd = s.cmd := by unfold State.fallBack; (repeat' split) <;> simp
@[simp] theorem State.fallBack_divider : (s.fallBack).divider = s.divider := by unfold State.fallBack; (repeat' split) <;> simp
@[simp] theorem State.fallBack_windowData : (s.fallBack).windowData = s.windowData := by unfold State.fallBack; (repeat' split) <;> simp
@[simp] theorem State.fallBack_pending : (s.fallBack).pending = s.pending := by unfold State.fallBack; (repeat' split) <;> simp

/-! ### failSlot -/

@[simp] theorem State.failSlot_pins (x : SlotResult) (i : Nat) : (s.failSlot x i).pins = s.pins := by simp [State.failSlot]
@[simp] theorem State.failSlot_fetch (x : SlotResult) (i : Nat) : (s.failSlot x i).fetch = s.fetch := by simp [State.failSlot]
@[simp] theorem State.failSlot_log (x : SlotResult) (i : Nat) : (s.failSlot x i).log = s.log := by simp [State.failSlot]
@[simp] theorem State.failSlot_cmd (x : SlotResult) (i : Nat) : (s.failSlot x i).cmd = s.cmd := by simp [State.failSlot]
@[simp] theorem State.failSlot_divider (x : SlotResult) (i : Nat) : (s.failSlot x i).divider = s.divider := by simp [State.failSlot]
@[simp] theorem State.failSlot_windowData (x : SlotResult) (i : Nat) : (s.failSlot x i).windowData = s.windowData := by simp [State.failSlot]
@[simp] theorem State.failSlot_pending (x : SlotResult) (i : Nat) : (s.failSlot x i).pending = s.pending := by simp [State.failSlot]
@[simp] theorem State.failSlot_ram (x : SlotResult) (i : Nat) : (s.failSlot x i).mem.ram = s.mem.ram := by simp [State.failSlot]

/-! ### failRecord -/

@[simp] theorem State.failRecord_pins (x : SlotResult) : (s.failRecord x).pins = s.pins := by simp [State.failRecord]
@[simp] theorem State.failRecord_fetch (x : SlotResult) : (s.failRecord x).fetch = s.fetch := by simp [State.failRecord]
@[simp] theorem State.failRecord_log (x : SlotResult) : (s.failRecord x).log = s.log := by simp [State.failRecord]
@[simp] theorem State.failRecord_cmd (x : SlotResult) : (s.failRecord x).cmd = s.cmd := by simp [State.failRecord]
@[simp] theorem State.failRecord_divider (x : SlotResult) : (s.failRecord x).divider = s.divider := by simp [State.failRecord]
@[simp] theorem State.failRecord_windowData (x : SlotResult) : (s.failRecord x).windowData = s.windowData := by simp [State.failRecord]
@[simp] theorem State.failRecord_pending (x : SlotResult) : (s.failRecord x).pending = s.pending := by simp [State.failRecord]
@[simp] theorem State.failRecord_ram (x : SlotResult) : (s.failRecord x).mem.ram = s.mem.ram := by simp [State.failRecord]

/-! ### reportSeal -/

@[simp] theorem State.reportSeal_pins (j : CrcJob) (c : Crc32) : (s.reportSeal j c).pins = s.pins := by unfold State.reportSeal; (repeat' split) <;> simp
@[simp] theorem State.reportSeal_fetch (j : CrcJob) (c : Crc32) : (s.reportSeal j c).fetch = s.fetch := by unfold State.reportSeal; (repeat' split) <;> simp
@[simp] theorem State.reportSeal_log (j : CrcJob) (c : Crc32) : (s.reportSeal j c).log = s.log := by unfold State.reportSeal; (repeat' split) <;> simp
@[simp] theorem State.reportSeal_divider (j : CrcJob) (c : Crc32) : (s.reportSeal j c).divider = s.divider := by unfold State.reportSeal; (repeat' split) <;> simp
@[simp] theorem State.reportSeal_windowData (j : CrcJob) (c : Crc32) : (s.reportSeal j c).windowData = s.windowData := by unfold State.reportSeal; (repeat' split) <;> simp
@[simp] theorem State.reportSeal_pending (j : CrcJob) (c : Crc32) : (s.reportSeal j c).pending = s.pending := by unfold State.reportSeal; (repeat' split) <;> simp
@[simp] theorem State.reportSeal_ram (j : CrcJob) (c : Crc32) : (s.reportSeal j c).mem.ram = s.mem.ram := by unfold State.reportSeal; (repeat' split) <;> simp

/-! ### foldCrcWord -/

@[simp] theorem State.foldCrcWord_pins (j : CrcJob) : (s.foldCrcWord j).pins = s.pins := by unfold State.foldCrcWord; dsimp only; split <;> simp
@[simp] theorem State.foldCrcWord_fetch (j : CrcJob) : (s.foldCrcWord j).fetch = s.fetch := by unfold State.foldCrcWord; dsimp only; split <;> simp
@[simp] theorem State.foldCrcWord_log (j : CrcJob) : (s.foldCrcWord j).log = s.log := by unfold State.foldCrcWord; dsimp only; split <;> simp
@[simp] theorem State.foldCrcWord_divider (j : CrcJob) : (s.foldCrcWord j).divider = s.divider := by unfold State.foldCrcWord; dsimp only; split <;> simp
@[simp] theorem State.foldCrcWord_windowData (j : CrcJob) : (s.foldCrcWord j).windowData = s.windowData := by unfold State.foldCrcWord; dsimp only; split <;> simp
@[simp] theorem State.foldCrcWord_pending (j : CrcJob) : (s.foldCrcWord j).pending = s.pending := by unfold State.foldCrcWord; dsimp only; split <;> simp
@[simp] theorem State.foldCrcWord_ram (j : CrcJob) : (s.foldCrcWord j).mem.ram = s.mem.ram := by unfold State.foldCrcWord; dsimp only; split <;> simp

/-! ### advancePointer -/

@[simp] theorem State.advancePointer_pins : (s.advancePointer).pins = s.pins := by unfold State.advancePointer; (repeat' split) <;> simp
@[simp] theorem State.advancePointer_fetch : (s.advancePointer).fetch = s.fetch := by unfold State.advancePointer; (repeat' split) <;> simp
@[simp] theorem State.advancePointer_tables : (s.advancePointer).tables = s.tables := by unfold State.advancePointer; (repeat' split) <;> simp
@[simp] theorem State.advancePointer_gen : (s.advancePointer).gen = s.gen := by unfold State.advancePointer; (repeat' split) <;> simp
@[simp] theorem State.advancePointer_log : (s.advancePointer).log = s.log := by unfold State.advancePointer; (repeat' split) <;> simp
@[simp] theorem State.advancePointer_irq : (s.advancePointer).irq = s.irq := by unfold State.advancePointer; (repeat' split) <;> simp
@[simp] theorem State.advancePointer_cmd : (s.advancePointer).cmd = s.cmd := by unfold State.advancePointer; (repeat' split) <;> simp
@[simp] theorem State.advancePointer_loader : (s.advancePointer).loader = s.loader := by unfold State.advancePointer; (repeat' split) <;> simp
@[simp] theorem State.advancePointer_divider : (s.advancePointer).divider = s.divider := by unfold State.advancePointer; (repeat' split) <;> simp
@[simp] theorem State.advancePointer_windowData : (s.advancePointer).windowData = s.windowData := by unfold State.advancePointer; (repeat' split) <;> simp
@[simp] theorem State.advancePointer_pending : (s.advancePointer).pending = s.pending := by unfold State.advancePointer; (repeat' split) <;> simp
@[simp] theorem State.advancePointer_ram : (s.advancePointer).mem.ram = s.mem.ram := by unfold State.advancePointer; (repeat' split) <;> simp
@[simp] theorem State.advancePointer_segments : (s.advancePointer).mem.segments = s.mem.segments := by unfold State.advancePointer; (repeat' split) <;> simp
@[simp] theorem State.advancePointer_writeLatch : (s.advancePointer).mem.writeLatch = s.mem.writeLatch := by unfold State.advancePointer; (repeat' split) <;> simp
@[simp] theorem State.advancePointer_readLatch : (s.advancePointer).mem.readLatch = s.mem.readLatch := by unfold State.advancePointer; (repeat' split) <;> simp
@[simp] theorem State.advancePointer_dataReject : (s.advancePointer).mem.dataReject = s.mem.dataReject := by unfold State.advancePointer; (repeat' split) <;> simp
@[simp] theorem State.advancePointer_crcJob : (s.advancePointer).mem.crcJob = s.mem.crcJob := by unfold State.advancePointer; (repeat' split) <;> simp
@[simp] theorem State.advancePointer_arbiter : (s.advancePointer).mem.arbiter = s.mem.arbiter := by unfold State.advancePointer; (repeat' split) <;> simp

/-! ### writeDataHi -/

@[simp] theorem State.writeDataHi_pins (v : Byte) : (s.writeDataHi v).pins = s.pins := by unfold State.writeDataHi; (repeat' split) <;> simp
@[simp] theorem State.writeDataHi_fetch (v : Byte) : (s.writeDataHi v).fetch = s.fetch := by unfold State.writeDataHi; (repeat' split) <;> simp
@[simp] theorem State.writeDataHi_tables (v : Byte) : (s.writeDataHi v).tables = s.tables := by unfold State.writeDataHi; (repeat' split) <;> simp
@[simp] theorem State.writeDataHi_gen (v : Byte) : (s.writeDataHi v).gen = s.gen := by unfold State.writeDataHi; (repeat' split) <;> simp
@[simp] theorem State.writeDataHi_log (v : Byte) : (s.writeDataHi v).log = s.log := by unfold State.writeDataHi; (repeat' split) <;> simp
@[simp] theorem State.writeDataHi_irq (v : Byte) : (s.writeDataHi v).irq = s.irq := by unfold State.writeDataHi; (repeat' split) <;> simp
@[simp] theorem State.writeDataHi_cmd (v : Byte) : (s.writeDataHi v).cmd = s.cmd := by unfold State.writeDataHi; (repeat' split) <;> simp
@[simp] theorem State.writeDataHi_loader (v : Byte) : (s.writeDataHi v).loader = s.loader := by unfold State.writeDataHi; (repeat' split) <;> simp
@[simp] theorem State.writeDataHi_divider (v : Byte) : (s.writeDataHi v).divider = s.divider := by unfold State.writeDataHi; (repeat' split) <;> simp
@[simp] theorem State.writeDataHi_windowData (v : Byte) : (s.writeDataHi v).windowData = s.windowData := by unfold State.writeDataHi; (repeat' split) <;> simp
@[simp] theorem State.writeDataHi_pending (v : Byte) : (s.writeDataHi v).pending = s.pending := by unfold State.writeDataHi; (repeat' split) <;> simp
@[simp] theorem State.writeDataHi_segments (v : Byte) : (s.writeDataHi v).mem.segments = s.mem.segments := by unfold State.writeDataHi; (repeat' split) <;> simp
@[simp] theorem State.writeDataHi_writeLatch (v : Byte) : (s.writeDataHi v).mem.writeLatch = s.mem.writeLatch := by unfold State.writeDataHi; (repeat' split) <;> simp
@[simp] theorem State.writeDataHi_readLatch (v : Byte) : (s.writeDataHi v).mem.readLatch = s.mem.readLatch := by unfold State.writeDataHi; (repeat' split) <;> simp
@[simp] theorem State.writeDataHi_crcJob (v : Byte) : (s.writeDataHi v).mem.crcJob = s.mem.crcJob := by unfold State.writeDataHi; (repeat' split) <;> simp

/-! ### readDataLo -/

@[simp] theorem State.readDataLo_pins : (s.readDataLo).pins = s.pins := by unfold State.readDataLo; (repeat' split) <;> simp
@[simp] theorem State.readDataLo_fetch : (s.readDataLo).fetch = s.fetch := by unfold State.readDataLo; (repeat' split) <;> simp
@[simp] theorem State.readDataLo_tables : (s.readDataLo).tables = s.tables := by unfold State.readDataLo; (repeat' split) <;> simp
@[simp] theorem State.readDataLo_gen : (s.readDataLo).gen = s.gen := by unfold State.readDataLo; (repeat' split) <;> simp
@[simp] theorem State.readDataLo_log : (s.readDataLo).log = s.log := by unfold State.readDataLo; (repeat' split) <;> simp
@[simp] theorem State.readDataLo_irq : (s.readDataLo).irq = s.irq := by unfold State.readDataLo; (repeat' split) <;> simp
@[simp] theorem State.readDataLo_cmd : (s.readDataLo).cmd = s.cmd := by unfold State.readDataLo; (repeat' split) <;> simp
@[simp] theorem State.readDataLo_loader : (s.readDataLo).loader = s.loader := by unfold State.readDataLo; (repeat' split) <;> simp
@[simp] theorem State.readDataLo_divider : (s.readDataLo).divider = s.divider := by unfold State.readDataLo; (repeat' split) <;> simp
@[simp] theorem State.readDataLo_pending : (s.readDataLo).pending = s.pending := by unfold State.readDataLo; (repeat' split) <;> simp
@[simp] theorem State.readDataLo_ram : (s.readDataLo).mem.ram = s.mem.ram := by unfold State.readDataLo; (repeat' split) <;> simp
@[simp] theorem State.readDataLo_segments : (s.readDataLo).mem.segments = s.mem.segments := by unfold State.readDataLo; (repeat' split) <;> simp
@[simp] theorem State.readDataLo_pointer : (s.readDataLo).mem.pointer = s.mem.pointer := by unfold State.readDataLo; (repeat' split) <;> simp
@[simp] theorem State.readDataLo_writeLatch : (s.readDataLo).mem.writeLatch = s.mem.writeLatch := by unfold State.readDataLo; (repeat' split) <;> simp
@[simp] theorem State.readDataLo_crcJob : (s.readDataLo).mem.crcJob = s.mem.crcJob := by unfold State.readDataLo; (repeat' split) <;> simp

/-! ### readDataHi -/

@[simp] theorem State.readDataHi_pins : (s.readDataHi).pins = s.pins := by unfold State.readDataHi; (repeat' split) <;> simp
@[simp] theorem State.readDataHi_fetch : (s.readDataHi).fetch = s.fetch := by unfold State.readDataHi; (repeat' split) <;> simp
@[simp] theorem State.readDataHi_tables : (s.readDataHi).tables = s.tables := by unfold State.readDataHi; (repeat' split) <;> simp
@[simp] theorem State.readDataHi_gen : (s.readDataHi).gen = s.gen := by unfold State.readDataHi; (repeat' split) <;> simp
@[simp] theorem State.readDataHi_log : (s.readDataHi).log = s.log := by unfold State.readDataHi; (repeat' split) <;> simp
@[simp] theorem State.readDataHi_irq : (s.readDataHi).irq = s.irq := by unfold State.readDataHi; (repeat' split) <;> simp
@[simp] theorem State.readDataHi_cmd : (s.readDataHi).cmd = s.cmd := by unfold State.readDataHi; (repeat' split) <;> simp
@[simp] theorem State.readDataHi_loader : (s.readDataHi).loader = s.loader := by unfold State.readDataHi; (repeat' split) <;> simp
@[simp] theorem State.readDataHi_divider : (s.readDataHi).divider = s.divider := by unfold State.readDataHi; (repeat' split) <;> simp
@[simp] theorem State.readDataHi_pending : (s.readDataHi).pending = s.pending := by unfold State.readDataHi; (repeat' split) <;> simp
@[simp] theorem State.readDataHi_ram : (s.readDataHi).mem.ram = s.mem.ram := by unfold State.readDataHi; (repeat' split) <;> simp
@[simp] theorem State.readDataHi_segments : (s.readDataHi).mem.segments = s.mem.segments := by unfold State.readDataHi; (repeat' split) <;> simp
@[simp] theorem State.readDataHi_writeLatch : (s.readDataHi).mem.writeLatch = s.mem.writeLatch := by unfold State.readDataHi; (repeat' split) <;> simp
@[simp] theorem State.readDataHi_crcJob : (s.readDataHi).mem.crcJob = s.mem.crcJob := by unfold State.readDataHi; (repeat' split) <;> simp
@[simp] theorem State.readDataHi_arbiter : (s.readDataHi).mem.arbiter = s.mem.arbiter := by unfold State.readDataHi; (repeat' split) <;> simp

/-! ### writeParam -/

@[simp] theorem State.writeParam_pins (i : Fin 16) (v : Byte) : (s.writeParam i v).pins = s.pins := by unfold State.writeParam; split <;> rfl
@[simp] theorem State.writeParam_fetch (i : Fin 16) (v : Byte) : (s.writeParam i v).fetch = s.fetch := by unfold State.writeParam; split <;> rfl
@[simp] theorem State.writeParam_mem (i : Fin 16) (v : Byte) : (s.writeParam i v).mem = s.mem := by unfold State.writeParam; split <;> rfl
@[simp] theorem State.writeParam_tables (i : Fin 16) (v : Byte) : (s.writeParam i v).tables = s.tables := by unfold State.writeParam; split <;> rfl
@[simp] theorem State.writeParam_gen (i : Fin 16) (v : Byte) : (s.writeParam i v).gen = s.gen := by unfold State.writeParam; split <;> rfl
@[simp] theorem State.writeParam_log (i : Fin 16) (v : Byte) : (s.writeParam i v).log = s.log := by unfold State.writeParam; split <;> rfl
@[simp] theorem State.writeParam_irq (i : Fin 16) (v : Byte) : (s.writeParam i v).irq = s.irq := by unfold State.writeParam; split <;> rfl
@[simp] theorem State.writeParam_loader (i : Fin 16) (v : Byte) : (s.writeParam i v).loader = s.loader := by unfold State.writeParam; split <;> rfl
@[simp] theorem State.writeParam_divider (i : Fin 16) (v : Byte) : (s.writeParam i v).divider = s.divider := by unfold State.writeParam; split <;> rfl
@[simp] theorem State.writeParam_windowData (i : Fin 16) (v : Byte) : (s.writeParam i v).windowData = s.windowData := by unfold State.writeParam; split <;> rfl
@[simp] theorem State.writeParam_pending (i : Fin 16) (v : Byte) : (s.writeParam i v).pending = s.pending := by unfold State.writeParam; split <;> rfl

end

end Sys2Proof.Machine
end

