-- ==== Sys2Proof/Laws/Commands.lean ====
section
/-! SUPPORT. The frames of the meanings: for each owner of a command, and for each event of the fetch port and of the loader,
the blocks of State and the fields of patch memory that it leaves as they were; and what the common event wrappers answer. -/

namespace Sys2Proof.Machine

/-- An event outside chip reset answers its effect; in chip reset it changes nothing. -/
theorem outOfReset_next (s t : State) (f : State → State) (h : outOfReset s f = .next t) :
    t = s ∨ (s.pins.xrst = false ∧ t = f s) := by
  unfold outOfReset at h
  cases hx : s.pins.xrst <;> simp [hx] at h <;> simp [h]

/-- A window access outside chip reset answers its effect, with no data-port access outstanding. -/
theorem windowEvent_next (s t : State) (f : State → State) (h : windowEvent s f = .next t) :
    t = s ∨ (s.pins.xrst = false ∧ t = f s.dataEnded) := outOfReset_next s t _ h

/-- A command event changes nothing, or is refused, or is answered LOADER_ACTIVE, or is its owner's. -/
theorem commandEvent_next (code : Byte) (w : Bool) (owner : State → State) (s t : State)
    (h : commandEvent code w owner s = .next t) :
    t = s ∨ t = s.dataEnded.refuse ∨ t = (s.dataEnded.setCommand code).answer .loaderActive []
      ∨ (s.pins.xrst = false ∧ s.cmd.busy = none ∧ (w = false → loaderRunning s = false)
          ∧ t = owner (s.dataEnded.setCommand code)) := by
  unfold commandEvent at h
  rcases windowEvent_next s t _ h with h | ⟨hx, h⟩
  · exact .inl h
  · unfold takeCommand at h
    split at h
    · exact .inr (.inl h)
    · split at h
      · exact .inr (.inr (.inl h))
      · rename_i h1 h2
        refine .inr (.inr (.inr ⟨hx, by simpa using h1, ?_, h⟩))
        intro hw
        simpa [hw, loaderRunning] using h2

section

variable (s : State)

/-! ### segAllocOwner -/

@[simp] theorem segAllocOwner_pins : (segAllocOwner s).pins = s.pins := by
  unfold segAllocOwner; (repeat' split) <;> simp
@[simp] theorem segAllocOwner_fetch : (segAllocOwner s).fetch = s.fetch := by
  unfold segAllocOwner; (repeat' split) <;> simp
@[simp] theorem segAllocOwner_tables : (segAllocOwner s).tables = s.tables := by
  unfold segAllocOwner; (repeat' split) <;> simp
@[simp] theorem segAllocOwner_gen : (segAllocOwner s).gen = s.gen := by
  unfold segAllocOwner; (repeat' split) <;> simp
@[simp] theorem segAllocOwner_log : (segAllocOwner s).log = s.log := by
  unfold segAllocOwner; (repeat' split) <;> simp
@[simp] theorem segAllocOwner_irq : (segAllocOwner s).irq = s.irq := by
  unfold segAllocOwner; (repeat' split) <;> simp
@[simp] theorem segAllocOwner_loader : (segAllocOwner s).loader = s.loader := by
  unfold segAllocOwner; (repeat' split) <;> simp
@[simp] theorem segAllocOwner_divider : (segAllocOwner s).divider = s.divider := by
  unfold segAllocOwner; (repeat' split) <;> simp
@[simp] theorem segAllocOwner_windowData : (segAllocOwner s).windowData = s.windowData := by
  unfold segAllocOwner; (repeat' split) <;> simp
@[simp] theorem segAllocOwner_pending : (segAllocOwner s).pending = s.pending := by
  unfold segAllocOwner; (repeat' split) <;> simp
@[simp] theorem segAllocOwner_ram : (segAllocOwner s).mem.ram = s.mem.ram := by
  unfold segAllocOwner; (repeat' split) <;> simp
@[simp] theorem segAllocOwner_pointer : (segAllocOwner s).mem.pointer = s.mem.pointer := by
  unfold segAllocOwner; (repeat' split) <;> simp
@[simp] theorem segAllocOwner_writeLatch : (segAllocOwner s).mem.writeLatch = s.mem.writeLatch := by
  unfold segAllocOwner; (repeat' split) <;> simp
@[simp] theorem segAllocOwner_readLatch : (segAllocOwner s).mem.readLatch = s.mem.readLatch := by
  unfold segAllocOwner; (repeat' split) <;> simp
@[simp] theorem segAllocOwner_dataReject : (segAllocOwner s).mem.dataReject = s.mem.dataReject := by
  unfold segAllocOwner; (repeat' split) <;> simp
@[simp] theorem segAllocOwner_crcJob : (segAllocOwner s).mem.crcJob = s.mem.crcJob := by
  unfold segAllocOwner; (repeat' split) <;> simp
@[simp] theorem segAllocOwner_arbiter : (segAllocOwner s).mem.arbiter = s.mem.arbiter := by
  unfold segAllocOwner; (repeat' split) <;> simp

/-! ### segSelectOwner -/

@[simp] theorem segSelectOwner_pins : (segSelectOwner s).pins = s.pins := by
  unfold segSelectOwner withHandle; split <;> (try split) <;> (try dsimp only) <;> (repeat' split) <;> simp
@[simp] theorem segSelectOwner_fetch : (segSelectOwner s).fetch = s.fetch := by
  unfold segSelectOwner withHandle; split <;> (try split) <;> (try dsimp only) <;> (repeat' split) <;> simp
@[simp] theorem segSelectOwner_tables : (segSelectOwner s).tables = s.tables := by
  unfold segSelectOwner withHandle; split <;> (try split) <;> (try dsimp only) <;> (repeat' split) <;> simp
@[simp] theorem segSelectOwner_gen : (segSelectOwner s).gen = s.gen := by
  unfold segSelectOwner withHandle; split <;> (try split) <;> (try dsimp only) <;> (repeat' split) <;> simp
@[simp] theorem segSelectOwner_log : (segSelectOwner s).log = s.log := by
  unfold segSelectOwner withHandle; split <;> (try split) <;> (try dsimp only) <;> (repeat' split) <;> simp
@[simp] theorem segSelectOwner_irq : (segSelectOwner s).irq = s.irq := by
  unfold segSelectOwner withHandle; split <;> (try split) <;> (try dsimp only) <;> (repeat' split) <;> simp
@[simp] theorem segSelectOwner_loader : (segSelectOwner s).loader = s.loader := by
  unfold segSelectOwner withHandle; split <;> (try split) <;> (try dsimp only) <;> (repeat' split) <;> simp
@[simp] theorem segSelectOwner_divider : (segSelectOwner s).divider = s.divider := by
  unfold segSelectOwner withHandle; split <;> (try split) <;> (try dsimp only) <;> (repeat' split) <;> simp
@[simp] theorem segSelectOwner_windowData : (segSelectOwner s).windowData = s.windowData := by
  unfold segSelectOwner withHandle; split <;> (try split) <;> (try dsimp only) <;> (repeat' split) <;> simp
@[simp] theorem segSelectOwner_pending : (segSelectOwner s).pending = s.pending := by
  unfold segSelectOwner withHandle; split <;> (try split) <;> (try dsimp only) <;> (repeat' split) <;> simp
@[simp] theorem segSelectOwner_ram : (segSelectOwner s).mem.ram = s.mem.ram := by
  unfold segSelectOwner withHandle; split <;> (try split) <;> (try dsimp only) <;> (repeat' split) <;> simp
@[simp] theorem segSelectOwner_segments : (segSelectOwner s).mem.segments = s.mem.segments := by
  unfold segSelectOwner withHandle; split <;> (try split) <;> (try dsimp only) <;> (repeat' split) <;> simp
@[simp] theorem segSelectOwner_writeLatch : (segSelectOwner s).mem.writeLatch = s.mem.writeLatch := by
  unfold segSelectOwner withHandle; split <;> (try split) <;> (try dsimp only) <;> (repeat' split) <;> simp
@[simp] theorem segSelectOwner_dataReject : (segSelectOwner s).mem.dataReject = s.mem.dataReject := by
  unfold segSelectOwner withHandle; split <;> (try split) <;> (try dsimp only) <;> (repeat' split) <;> simp
@[simp] theorem segSelectOwner_crcJob : (segSelectOwner s).mem.crcJob = s.mem.crcJob := by
  unfold segSelectOwner withHandle; split <;> (try split) <;> (try dsimp only) <;> (repeat' split) <;> simp
@[simp] theorem segSelectOwner_arbiter : (segSelectOwner s).mem.arbiter = s.mem.arbiter := by
  unfold segSelectOwner withHandle; split <;> (try split) <;> (try dsimp only) <;> (repeat' split) <;> simp

/-! ### segSealOwner -/

@[simp] theorem segSealOwner_pins : (segSealOwner s).pins = s.pins := by
  unfold segSealOwner withHandle; split <;> (try split) <;> (try dsimp only) <;> (repeat' split) <;> simp
@[simp] theorem segSealOwner_fetch : (segSealOwner s).fetch = s.fetch := by
  unfold segSealOwner withHandle; split <;> (try split) <;> (try dsimp only) <;> (repeat' split) <;> simp
@[simp] theorem segSealOwner_tables : (segSealOwner s).tables = s.tables := by
  unfold segSealOwner withHandle; split <;> (try split) <;> (try dsimp only) <;> (repeat' split) <;> simp
@[simp] theorem segSealOwner_gen : (segSealOwner s).gen = s.gen := by
  unfold segSealOwner withHandle; split <;> (try split) <;> (try dsimp only) <;> (repeat' split) <;> simp
@[simp] theorem segSealOwner_log : (segSealOwner s).log = s.log := by
  unfold segSealOwner withHandle; split <;> (try split) <;> (try dsimp only) <;> (repeat' split) <;> simp
@[simp] theorem segSealOwner_irq : (segSealOwner s).irq = s.irq := by
  unfold segSealOwner withHandle; split <;> (try split) <;> (try dsimp only) <;> (repeat' split) <;> simp
@[simp] theorem segSealOwner_loader : (segSealOwner s).loader = s.loader := by
  unfold segSealOwner withHandle; split <;> (try split) <;> (try dsimp only) <;> (repeat' split) <;> simp
@[simp] theorem segSealOwner_divider : (segSealOwner s).divider = s.divider := by
  unfold segSealOwner withHandle; split <;> (try split) <;> (try dsimp only) <;> (repeat' split) <;> simp
@[simp] theorem segSealOwner_windowData : (segSealOwner s).windowData = s.windowData := by
  unfold segSealOwner withHandle; split <;> (try split) <;> (try dsimp only) <;> (repeat' split) <;> simp
@[simp] theorem segSealOwner_pending : (segSealOwner s).pending = s.pending := by
  unfold segSealOwner withHandle; split <;> (try split) <;> (try dsimp only) <;> (repeat' split) <;> simp
@[simp] theorem segSealOwner_ram : (segSealOwner s).mem.ram = s.mem.ram := by
  unfold segSealOwner withHandle; split <;> (try split) <;> (try dsimp only) <;> (repeat' split) <;> simp
@[simp] theorem segSealOwner_pointer : (segSealOwner s).mem.pointer = s.mem.pointer := by
  unfold segSealOwner withHandle; split <;> (try split) <;> (try dsimp only) <;> (repeat' split) <;> simp
@[simp] theorem segSealOwner_writeLatch : (segSealOwner s).mem.writeLatch = s.mem.writeLatch := by
  unfold segSealOwner withHandle; split <;> (try split) <;> (try dsimp only) <;> (repeat' split) <;> simp
@[simp] theorem segSealOwner_readLatch : (segSealOwner s).mem.readLatch = s.mem.readLatch := by
  unfold segSealOwner withHandle; split <;> (try split) <;> (try dsimp only) <;> (repeat' split) <;> simp
@[simp] theorem segSealOwner_dataReject : (segSealOwner s).mem.dataReject = s.mem.dataReject := by
  unfold segSealOwner withHandle; split <;> (try split) <;> (try dsimp only) <;> (repeat' split) <;> simp

/-! ### segUnsealOwner -/

@[simp] theorem segUnsealOwner_pins : (segUnsealOwner s).pins = s.pins := by
  unfold segUnsealOwner withHandle; split <;> (try split) <;> (try dsimp only) <;> (repeat' split) <;> simp
@[simp] theorem segUnsealOwner_fetch : (segUnsealOwner s).fetch = s.fetch := by
  unfold segUnsealOwner withHandle; split <;> (try split) <;> (try dsimp only) <;> (repeat' split) <;> simp
@[simp] theorem segUnsealOwner_tables : (segUnsealOwner s).tables = s.tables := by
  unfold segUnsealOwner withHandle; split <;> (try split) <;> (try dsimp only) <;> (repeat' split) <;> simp
@[simp] theorem segUnsealOwner_gen : (segUnsealOwner s).gen = s.gen := by
  unfold segUnsealOwner withHandle; split <;> (try split) <;> (try dsimp only) <;> (repeat' split) <;> simp
@[simp] theorem segUnsealOwner_log : (segUnsealOwner s).log = s.log := by
  unfold segUnsealOwner withHandle; split <;> (try split) <;> (try dsimp only) <;> (repeat' split) <;> simp
@[simp] theorem segUnsealOwner_irq : (segUnsealOwner s).irq = s.irq := by
  unfold segUnsealOwner withHandle; split <;> (try split) <;> (try dsimp only) <;> (repeat' split) <;> simp
@[simp] theorem segUnsealOwner_loader : (segUnsealOwner s).loader = s.loader := by
  unfold segUnsealOwner withHandle; split <;> (try split) <;> (try dsimp only) <;> (repeat' split) <;> simp
@[simp] theorem segUnsealOwner_divider : (segUnsealOwner s).divider = s.divider := by
  unfold segUnsealOwner withHandle; split <;> (try split) <;> (try dsimp only) <;> (repeat' split) <;> simp
@[simp] theorem segUnsealOwner_windowData : (segUnsealOwner s).windowData = s.windowData := by
  unfold segUnsealOwner withHandle; split <;> (try split) <;> (try dsimp only) <;> (repeat' split) <;> simp
@[simp] theorem segUnsealOwner_pending : (segUnsealOwner s).pending = s.pending := by
  unfold segUnsealOwner withHandle; split <;> (try split) <;> (try dsimp only) <;> (repeat' split) <;> simp
@[simp] theorem segUnsealOwner_ram : (segUnsealOwner s).mem.ram = s.mem.ram := by
  unfold segUnsealOwner withHandle; split <;> (try split) <;> (try dsimp only) <;> (repeat' split) <;> simp
@[simp] theorem segUnsealOwner_pointer : (segUnsealOwner s).mem.pointer = s.mem.pointer := by
  unfold segUnsealOwner withHandle; split <;> (try split) <;> (try dsimp only) <;> (repeat' split) <;> simp
@[simp] theorem segUnsealOwner_writeLatch : (segUnsealOwner s).mem.writeLatch = s.mem.writeLatch := by
  unfold segUnsealOwner withHandle; split <;> (try split) <;> (try dsimp only) <;> (repeat' split) <;> simp
@[simp] theorem segUnsealOwner_readLatch : (segUnsealOwner s).mem.readLatch = s.mem.readLatch := by
  unfold segUnsealOwner withHandle; split <;> (try split) <;> (try dsimp only) <;> (repeat' split) <;> simp
@[simp] theorem segUnsealOwner_dataReject : (segUnsealOwner s).mem.dataReject = s.mem.dataReject := by
  unfold segUnsealOwner withHandle; split <;> (try split) <;> (try dsimp only) <;> (repeat' split) <;> simp
@[simp] theorem segUnsealOwner_crcJob : (segUnsealOwner s).mem.crcJob = s.mem.crcJob := by
  unfold segUnsealOwner withHandle; split <;> (try split) <;> (try dsimp only) <;> (repeat' split) <;> simp
@[simp] theorem segUnsealOwner_arbiter : (segUnsealOwner s).mem.arbiter = s.mem.arbiter := by
  unfold segUnsealOwner withHandle; split <;> (try split) <;> (try dsimp only) <;> (repeat' split) <;> simp

/-! ### segFreeOwner -/

@[simp] theorem segFreeOwner_pins : (segFreeOwner s).pins = s.pins := by
  unfold segFreeOwner withHandle; split <;> (try split) <;> (try dsimp only) <;> (repeat' split) <;> simp
@[simp] theorem segFreeOwner_fetch : (segFreeOwner s).fetch = s.fetch := by
  unfold segFreeOwner withHandle; split <;> (try split) <;> (try dsimp only) <;> (repeat' split) <;> simp
@[simp] theorem segFreeOwner_tables : (segFreeOwner s).tables = s.tables := by
  unfold segFreeOwner withHandle; split <;> (try split) <;> (try dsimp only) <;> (repeat' split) <;> simp
@[simp] theorem segFreeOwner_gen : (segFreeOwner s).gen = s.gen := by
  unfold segFreeOwner withHandle; split <;> (try split) <;> (try dsimp only) <;> (repeat' split) <;> simp
@[simp] theorem segFreeOwner_log : (segFreeOwner s).log = s.log := by
  unfold segFreeOwner withHandle; split <;> (try split) <;> (try dsimp only) <;> (repeat' split) <;> simp
@[simp] theorem segFreeOwner_irq : (segFreeOwner s).irq = s.irq := by
  unfold segFreeOwner withHandle; split <;> (try split) <;> (try dsimp only) <;> (repeat' split) <;> simp
@[simp] theorem segFreeOwner_loader : (segFreeOwner s).loader = s.loader := by
  unfold segFreeOwner withHandle; split <;> (try split) <;> (try dsimp only) <;> (repeat' split) <;> simp
@[simp] theorem segFreeOwner_divider : (segFreeOwner s).divider = s.divider := by
  unfold segFreeOwner withHandle; split <;> (try split) <;> (try dsimp only) <;> (repeat' split) <;> simp
@[simp] theorem segFreeOwner_windowData : (segFreeOwner s).windowData = s.windowData := by
  unfold segFreeOwner withHandle; split <;> (try split) <;> (try dsimp only) <;> (repeat' split) <;> simp
@[simp] theorem segFreeOwner_pending : (segFreeOwner s).pending = s.pending := by
  unfold segFreeOwner withHandle; split <;> (try split) <;> (try dsimp only) <;> (repeat' split) <;> simp
@[simp] theorem segFreeOwner_ram : (segFreeOwner s).mem.ram = s.mem.ram := by
  unfold segFreeOwner withHandle; split <;> (try split) <;> (try dsimp only) <;> (repeat' split) <;> simp
@[simp] theorem segFreeOwner_writeLatch : (segFreeOwner s).mem.writeLatch = s.mem.writeLatch := by
  unfold segFreeOwner withHandle; split <;> (try split) <;> (try dsimp only) <;> (repeat' split) <;> simp
@[simp] theorem segFreeOwner_dataReject : (segFreeOwner s).mem.dataReject = s.mem.dataReject := by
  unfold segFreeOwner withHandle; split <;> (try split) <;> (try dsimp only) <;> (repeat' split) <;> simp
@[simp] theorem segFreeOwner_crcJob : (segFreeOwner s).mem.crcJob = s.mem.crcJob := by
  unfold segFreeOwner withHandle; split <;> (try split) <;> (try dsimp only) <;> (repeat' split) <;> simp
@[simp] theorem segFreeOwner_arbiter : (segFreeOwner s).mem.arbiter = s.mem.arbiter := by
  unfold segFreeOwner withHandle; split <;> (try split) <;> (try dsimp only) <;> (repeat' split) <;> simp

/-! ### segInfoOwner -/

@[simp] theorem segInfoOwner_pins : (segInfoOwner s).pins = s.pins := by
  unfold segInfoOwner; (repeat' split) <;> simp
@[simp] theorem segInfoOwner_fetch : (segInfoOwner s).fetch = s.fetch := by
  unfold segInfoOwner; (repeat' split) <;> simp
@[simp] theorem segInfoOwner_mem : (segInfoOwner s).mem = s.mem := by
  unfold segInfoOwner; (repeat' split) <;> simp
@[simp] theorem segInfoOwner_tables : (segInfoOwner s).tables = s.tables := by
  unfold segInfoOwner; (repeat' split) <;> simp
@[simp] theorem segInfoOwner_gen : (segInfoOwner s).gen = s.gen := by
  unfold segInfoOwner; (repeat' split) <;> simp
@[simp] theorem segInfoOwner_log : (segInfoOwner s).log = s.log := by
  unfold segInfoOwner; (repeat' split) <;> simp
@[simp] theorem segInfoOwner_irq : (segInfoOwner s).irq = s.irq := by
  unfold segInfoOwner; (repeat' split) <;> simp
@[simp] theorem segInfoOwner_loader : (segInfoOwner s).loader = s.loader := by
  unfold segInfoOwner; (repeat' split) <;> simp
@[simp] theorem segInfoOwner_divider : (segInfoOwner s).divider = s.divider := by
  unfold segInfoOwner; (repeat' split) <;> simp
@[simp] theorem segInfoOwner_windowData : (segInfoOwner s).windowData = s.windowData := by
  unfold segInfoOwner; (repeat' split) <;> simp
@[simp] theorem segInfoOwner_pending : (segInfoOwner s).pending = s.pending := by
  unfold segInfoOwner; (repeat' split) <;> simp

/-! ### stgInsertOwner -/

@[simp] theorem stgInsertOwner_pins : (stgInsertOwner s).pins = s.pins := by
  unfold stgInsertOwner; (repeat' split) <;> simp
@[simp] theorem stgInsertOwner_fetch : (stgInsertOwner s).fetch = s.fetch := by
  unfold stgInsertOwner; (repeat' split) <;> simp
@[simp] theorem stgInsertOwner_gen : (stgInsertOwner s).gen = s.gen := by
  unfold stgInsertOwner; (repeat' split) <;> simp
@[simp] theorem stgInsertOwner_log : (stgInsertOwner s).log = s.log := by
  unfold stgInsertOwner; (repeat' split) <;> simp
@[simp] theorem stgInsertOwner_irq : (stgInsertOwner s).irq = s.irq := by
  unfold stgInsertOwner; (repeat' split) <;> simp
@[simp] theorem stgInsertOwner_loader : (stgInsertOwner s).loader = s.loader := by
  unfold stgInsertOwner; (repeat' split) <;> simp
@[simp] theorem stgInsertOwner_divider : (stgInsertOwner s).divider = s.divider := by
  unfold stgInsertOwner; (repeat' split) <;> simp
@[simp] theorem stgInsertOwner_windowData : (stgInsertOwner s).windowData = s.windowData := by
  unfold stgInsertOwner; (repeat' split) <;> simp
@[simp] theorem stgInsertOwner_pending : (stgInsertOwner s).pending = s.pending := by
  unfold stgInsertOwner; (repeat' split) <;> simp
@[simp] theorem stgInsertOwner_ram : (stgInsertOwner s).mem.ram = s.mem.ram := by
  unfold stgInsertOwner; (repeat' split) <;> simp
@[simp] theorem stgInsertOwner_pointer : (stgInsertOwner s).mem.pointer = s.mem.pointer := by
  unfold stgInsertOwner; (repeat' split) <;> simp
@[simp] theorem stgInsertOwner_writeLatch : (stgInsertOwner s).mem.writeLatch = s.mem.writeLatch := by
  unfold stgInsertOwner; (repeat' split) <;> simp
@[simp] theorem stgInsertOwner_readLatch : (stgInsertOwner s).mem.readLatch = s.mem.readLatch := by
  unfold stgInsertOwner; (repeat' split) <;> simp
@[simp] theorem stgInsertOwner_dataReject : (stgInsertOwner s).mem.dataReject = s.mem.dataReject := by
  unfold stgInsertOwner; (repeat' split) <;> simp
@[simp] theorem stgInsertOwner_crcJob : (stgInsertOwner s).mem.crcJob = s.mem.crcJob := by
  unfold stgInsertOwner; (repeat' split) <;> simp
@[simp] theorem stgInsertOwner_arbiter : (stgInsertOwner s).mem.arbiter = s.mem.arbiter := by
  unfold stgInsertOwner; (repeat' split) <;> simp

/-! ### stgRemoveOwner -/

@[simp] theorem stgRemoveOwner_pins : (stgRemoveOwner s).pins = s.pins := by
  unfold stgRemoveOwner; (repeat' split) <;> simp
@[simp] theorem stgRemoveOwner_fetch : (stgRemoveOwner s).fetch = s.fetch := by
  unfold stgRemoveOwner; (repeat' split) <;> simp
@[simp] theorem stgRemoveOwner_gen : (stgRemoveOwner s).gen = s.gen := by
  unfold stgRemoveOwner; (repeat' split) <;> simp
@[simp] theorem stgRemoveOwner_log : (stgRemoveOwner s).log = s.log := by
  unfold stgRemoveOwner; (repeat' split) <;> simp
@[simp] theorem stgRemoveOwner_irq : (stgRemoveOwner s).irq = s.irq := by
  unfold stgRemoveOwner; (repeat' split) <;> simp
@[simp] theorem stgRemoveOwner_loader : (stgRemoveOwner s).loader = s.loader := by
  unfold stgRemoveOwner; (repeat' split) <;> simp
@[simp] theorem stgRemoveOwner_divider : (stgRemoveOwner s).divider = s.divider := by
  unfold stgRemoveOwner; (repeat' split) <;> simp
@[simp] theorem stgRemoveOwner_windowData : (stgRemoveOwner s).windowData = s.windowData := by
  unfold stgRemoveOwner; (repeat' split) <;> simp
@[simp] theorem stgRemoveOwner_pending : (stgRemoveOwner s).pending = s.pending := by
  unfold stgRemoveOwner; (repeat' split) <;> simp
@[simp] theorem stgRemoveOwner_ram : (stgRemoveOwner s).mem.ram = s.mem.ram := by
  unfold stgRemoveOwner; (repeat' split) <;> simp
@[simp] theorem stgRemoveOwner_writeLatch : (stgRemoveOwner s).mem.writeLatch = s.mem.writeLatch := by
  unfold stgRemoveOwner; (repeat' split) <;> simp
@[simp] theorem stgRemoveOwner_dataReject : (stgRemoveOwner s).mem.dataReject = s.mem.dataReject := by
  unfold stgRemoveOwner; (repeat' split) <;> simp
@[simp] theorem stgRemoveOwner_crcJob : (stgRemoveOwner s).mem.crcJob = s.mem.crcJob := by
  unfold stgRemoveOwner; (repeat' split) <;> simp
@[simp] theorem stgRemoveOwner_arbiter : (stgRemoveOwner s).mem.arbiter = s.mem.arbiter := by
  unfold stgRemoveOwner; (repeat' split) <;> simp

/-! ### stgClearOwner -/

@[simp] theorem stgClearOwner_pins : (stgClearOwner s).pins = s.pins := by
  unfold stgClearOwner; (repeat' split) <;> simp
@[simp] theorem stgClearOwner_fetch : (stgClearOwner s).fetch = s.fetch := by
  unfold stgClearOwner; (repeat' split) <;> simp
@[simp] theorem stgClearOwner_gen : (stgClearOwner s).gen = s.gen := by
  unfold stgClearOwner; (repeat' split) <;> simp
@[simp] theorem stgClearOwner_log : (stgClearOwner s).log = s.log := by
  unfold stgClearOwner; (repeat' split) <;> simp
@[simp] theorem stgClearOwner_irq : (stgClearOwner s).irq = s.irq := by
  unfold stgClearOwner; (repeat' split) <;> simp
@[simp] theorem stgClearOwner_loader : (stgClearOwner s).loader = s.loader := by
  unfold stgClearOwner; (repeat' split) <;> simp
@[simp] theorem stgClearOwner_divider : (stgClearOwner s).divider = s.divider := by
  unfold stgClearOwner; (repeat' split) <;> simp
@[simp] theorem stgClearOwner_windowData : (stgClearOwner s).windowData = s.windowData := by
  unfold stgClearOwner; (repeat' split) <;> simp
@[simp] theorem stgClearOwner_pending : (stgClearOwner s).pending = s.pending := by
  unfold stgClearOwner; (repeat' split) <;> simp
@[simp] theorem stgClearOwner_ram : (stgClearOwner s).mem.ram = s.mem.ram := by
  unfold stgClearOwner; (repeat' split) <;> simp
@[simp] theorem stgClearOwner_writeLatch : (stgClearOwner s).mem.writeLatch = s.mem.writeLatch := by
  unfold stgClearOwner; (repeat' split) <;> simp
@[simp] theorem stgClearOwner_dataReject : (stgClearOwner s).mem.dataReject = s.mem.dataReject := by
  unfold stgClearOwner; (repeat' split) <;> simp
@[simp] theorem stgClearOwner_crcJob : (stgClearOwner s).mem.crcJob = s.mem.crcJob := by
  unfold stgClearOwner; (repeat' split) <;> simp
@[simp] theorem stgClearOwner_arbiter : (stgClearOwner s).mem.arbiter = s.mem.arbiter := by
  unfold stgClearOwner; (repeat' split) <;> simp

/-! ### stgCopyLiveOwner -/

@[simp] theorem stgCopyLiveOwner_pins : (stgCopyLiveOwner s).pins = s.pins := by
  unfold stgCopyLiveOwner; (repeat' split) <;> simp
@[simp] theorem stgCopyLiveOwner_fetch : (stgCopyLiveOwner s).fetch = s.fetch := by
  unfold stgCopyLiveOwner; (repeat' split) <;> simp
@[simp] theorem stgCopyLiveOwner_gen : (stgCopyLiveOwner s).gen = s.gen := by
  unfold stgCopyLiveOwner; (repeat' split) <;> simp
@[simp] theorem stgCopyLiveOwner_log : (stgCopyLiveOwner s).log = s.log := by
  unfold stgCopyLiveOwner; (repeat' split) <;> simp
@[simp] theorem stgCopyLiveOwner_irq : (stgCopyLiveOwner s).irq = s.irq := by
  unfold stgCopyLiveOwner; (repeat' split) <;> simp
@[simp] theorem stgCopyLiveOwner_loader : (stgCopyLiveOwner s).loader = s.loader := by
  unfold stgCopyLiveOwner; (repeat' split) <;> simp
@[simp] theorem stgCopyLiveOwner_divider : (stgCopyLiveOwner s).divider = s.divider := by
  unfold stgCopyLiveOwner; (repeat' split) <;> simp
@[simp] theorem stgCopyLiveOwner_windowData : (stgCopyLiveOwner s).windowData = s.windowData := by
  unfold stgCopyLiveOwner; (repeat' split) <;> simp
@[simp] theorem stgCopyLiveOwner_pending : (stgCopyLiveOwner s).pending = s.pending := by
  unfold stgCopyLiveOwner; (repeat' split) <;> simp
@[simp] theorem stgCopyLiveOwner_ram : (stgCopyLiveOwner s).mem.ram = s.mem.ram := by
  unfold stgCopyLiveOwner; (repeat' split) <;> simp
@[simp] theorem stgCopyLiveOwner_writeLatch : (stgCopyLiveOwner s).mem.writeLatch = s.mem.writeLatch := by
  unfold stgCopyLiveOwner; (repeat' split) <;> simp
@[simp] theorem stgCopyLiveOwner_dataReject : (stgCopyLiveOwner s).mem.dataReject = s.mem.dataReject := by
  unfold stgCopyLiveOwner; (repeat' split) <;> simp
@[simp] theorem stgCopyLiveOwner_crcJob : (stgCopyLiveOwner s).mem.crcJob = s.mem.crcJob := by
  unfold stgCopyLiveOwner; (repeat' split) <;> simp
@[simp] theorem stgCopyLiveOwner_arbiter : (stgCopyLiveOwner s).mem.arbiter = s.mem.arbiter := by
  unfold stgCopyLiveOwner; (repeat' split) <;> simp

/-! ### tblReadOwner -/

@[simp] theorem tblReadOwner_pins : (tblReadOwner s).pins = s.pins := by
  unfold tblReadOwner; (repeat' split) <;> simp
@[simp] theorem tblReadOwner_fetch : (tblReadOwner s).fetch = s.fetch := by
  unfold tblReadOwner; (repeat' split) <;> simp
@[simp] theorem tblReadOwner_mem : (tblReadOwner s).mem = s.mem := by
  unfold tblReadOwner; (repeat' split) <;> simp
@[simp] theorem tblReadOwner_tables : (tblReadOwner s).tables = s.tables := by
  unfold tblReadOwner; (repeat' split) <;> simp
@[simp] theorem tblReadOwner_gen : (tblReadOwner s).gen = s.gen := by
  unfold tblReadOwner; (repeat' split) <;> simp
@[simp] theorem tblReadOwner_log : (tblReadOwner s).log = s.log := by
  unfold tblReadOwner; (repeat' split) <;> simp
@[simp] theorem tblReadOwner_irq : (tblReadOwner s).irq = s.irq := by
  unfold tblReadOwner; (repeat' split) <;> simp
@[simp] theorem tblReadOwner_loader : (tblReadOwner s).loader = s.loader := by
  unfold tblReadOwner; (repeat' split) <;> simp
@[simp] theorem tblReadOwner_divider : (tblReadOwner s).divider = s.divider := by
  unfold tblReadOwner; (repeat' split) <;> simp
@[simp] theorem tblReadOwner_windowData : (tblReadOwner s).windowData = s.windowData := by
  unfold tblReadOwner; (repeat' split) <;> simp
@[simp] theorem tblReadOwner_pending : (tblReadOwner s).pending = s.pending := by
  unfold tblReadOwner; (repeat' split) <;> simp

/-! ### cntClearOwner -/

@[simp] theorem cntClearOwner_pins : (cntClearOwner s).pins = s.pins := by
  unfold cntClearOwner; (repeat' split) <;> simp
@[simp] theorem cntClearOwner_fetch : (cntClearOwner s).fetch = s.fetch := by
  unfold cntClearOwner; (repeat' split) <;> simp
@[simp] theorem cntClearOwner_mem : (cntClearOwner s).mem = s.mem := by
  unfold cntClearOwner; (repeat' split) <;> simp
@[simp] theorem cntClearOwner_gen : (cntClearOwner s).gen = s.gen := by
  unfold cntClearOwner; (repeat' split) <;> simp
@[simp] theorem cntClearOwner_log : (cntClearOwner s).log = s.log := by
  unfold cntClearOwner; (repeat' split) <;> simp
@[simp] theorem cntClearOwner_irq : (cntClearOwner s).irq = s.irq := by
  unfold cntClearOwner; (repeat' split) <;> simp
@[simp] theorem cntClearOwner_loader : (cntClearOwner s).loader = s.loader := by
  unfold cntClearOwner; (repeat' split) <;> simp
@[simp] theorem cntClearOwner_divider : (cntClearOwner s).divider = s.divider := by
  unfold cntClearOwner; (repeat' split) <;> simp
@[simp] theorem cntClearOwner_windowData : (cntClearOwner s).windowData = s.windowData := by
  unfold cntClearOwner; (repeat' split) <;> simp
@[simp] theorem cntClearOwner_pending : (cntClearOwner s).pending = s.pending := by
  unfold cntClearOwner; (repeat' split) <;> simp

/-! ### commitOwner -/

@[simp] theorem commitOwner_pins : (commitOwner s).pins = s.pins := by
  unfold commitOwner; (repeat' split) <;> simp
@[simp] theorem commitOwner_loader : (commitOwner s).loader = s.loader := by
  unfold commitOwner; (repeat' split) <;> simp
@[simp] theorem commitOwner_divider : (commitOwner s).divider = s.divider := by
  unfold commitOwner; (repeat' split) <;> simp
@[simp] theorem commitOwner_windowData : (commitOwner s).windowData = s.windowData := by
  unfold commitOwner; (repeat' split) <;> simp
@[simp] theorem commitOwner_pending : (commitOwner s).pending = s.pending := by
  unfold commitOwner; (repeat' split) <;> simp
@[simp] theorem commitOwner_ram : (commitOwner s).mem.ram = s.mem.ram := by
  unfold commitOwner; (repeat' split) <;> simp
@[simp] theorem commitOwner_writeLatch : (commitOwner s).mem.writeLatch = s.mem.writeLatch := by
  unfold commitOwner; (repeat' split) <;> simp
@[simp] theorem commitOwner_dataReject : (commitOwner s).mem.dataReject = s.mem.dataReject := by
  unfold commitOwner; (repeat' split) <;> simp
@[simp] theorem commitOwner_crcJob : (commitOwner s).mem.crcJob = s.mem.crcJob := by
  unfold commitOwner; (repeat' split) <;> simp

/-! ### commitAbortOwner -/

@[simp] theorem commitAbortOwner_pins : (commitAbortOwner s).pins = s.pins := by
  unfold commitAbortOwner; (repeat' split) <;> simp
@[simp] theorem commitAbortOwner_loader : (commitAbortOwner s).loader = s.loader := by
  unfold commitAbortOwner; (repeat' split) <;> simp
@[simp] theorem commitAbortOwner_divider : (commitAbortOwner s).divider = s.divider := by
  unfold commitAbortOwner; (repeat' split) <;> simp
@[simp] theorem commitAbortOwner_windowData : (commitAbortOwner s).windowData = s.windowData := by
  unfold commitAbortOwner; (repeat' split) <;> simp
@[simp] theorem commitAbortOwner_pending : (commitAbortOwner s).pending = s.pending := by
  unfold commitAbortOwner; (repeat' split) <;> simp
@[simp] theorem commitAbortOwner_ram : (commitAbortOwner s).mem.ram = s.mem.ram := by
  unfold commitAbortOwner; (repeat' split) <;> simp
@[simp] theorem commitAbortOwner_writeLatch : (commitAbortOwner s).mem.writeLatch = s.mem.writeLatch := by
  unfold commitAbortOwner; (repeat' split) <;> simp
@[simp] theorem commitAbortOwner_dataReject : (commitAbortOwner s).mem.dataReject = s.mem.dataReject := by
  unfold commitAbortOwner; (repeat' split) <;> simp
@[simp] theorem commitAbortOwner_crcJob : (commitAbortOwner s).mem.crcJob = s.mem.crcJob := by
  unfold commitAbortOwner; (repeat' split) <;> simp

/-! ### revertOwner -/

@[simp] theorem revertOwner_pins : (revertOwner s).pins = s.pins := by
  unfold revertOwner; (repeat' split) <;> simp
@[simp] theorem revertOwner_loader : (revertOwner s).loader = s.loader := by
  unfold revertOwner; (repeat' split) <;> simp
@[simp] theorem revertOwner_divider : (revertOwner s).divider = s.divider := by
  unfold revertOwner; (repeat' split) <;> simp
@[simp] theorem revertOwner_windowData : (revertOwner s).windowData = s.windowData := by
  unfold revertOwner; (repeat' split) <;> simp
@[simp] theorem revertOwner_pending : (revertOwner s).pending = s.pending := by
  unfold revertOwner; (repeat' split) <;> simp
@[simp] theorem revertOwner_ram : (revertOwner s).mem.ram = s.mem.ram := by
  unfold revertOwner; (repeat' split) <;> simp
@[simp] theorem revertOwner_writeLatch : (revertOwner s).mem.writeLatch = s.mem.writeLatch := by
  unfold revertOwner; (repeat' split) <;> simp
@[simp] theorem revertOwner_dataReject : (revertOwner s).mem.dataReject = s.mem.dataReject := by
  unfold revertOwner; (repeat' split) <;> simp
@[simp] theorem revertOwner_crcJob : (revertOwner s).mem.crcJob = s.mem.crcJob := by
  unfold revertOwner; (repeat' split) <;> simp

/-! ### confirmOwner -/

@[simp] theorem confirmOwner_pins : (confirmOwner s).pins = s.pins := by
  unfold confirmOwner; (repeat' split) <;> simp
@[simp] theorem confirmOwner_fetch : (confirmOwner s).fetch = s.fetch := by
  unfold confirmOwner; (repeat' split) <;> simp
@[simp] theorem confirmOwner_mem : (confirmOwner s).mem = s.mem := by
  unfold confirmOwner; (repeat' split) <;> simp
@[simp] theorem confirmOwner_tables : (confirmOwner s).tables = s.tables := by
  unfold confirmOwner; (repeat' split) <;> simp
@[simp] theorem confirmOwner_log : (confirmOwner s).log = s.log := by
  unfold confirmOwner; (repeat' split) <;> simp
@[simp] theorem confirmOwner_irq : (confirmOwner s).irq = s.irq := by
  unfold confirmOwner; (repeat' split) <;> simp
@[simp] theorem confirmOwner_loader : (confirmOwner s).loader = s.loader := by
  unfold confirmOwner; (repeat' split) <;> simp
@[simp] theorem confirmOwner_divider : (confirmOwner s).divider = s.divider := by
  unfold confirmOwner; (repeat' split) <;> simp
@[simp] theorem confirmOwner_windowData : (confirmOwner s).windowData = s.windowData := by
  unfold confirmOwner; (repeat' split) <;> simp
@[simp] theorem confirmOwner_pending : (confirmOwner s).pending = s.pending := by
  unfold confirmOwner; (repeat' split) <;> simp

/-! ### genStatusOwner -/

@[simp] theorem genStatusOwner_pins : (genStatusOwner s).pins = s.pins := rfl
@[simp] theorem genStatusOwner_fetch : (genStatusOwner s).fetch = s.fetch := rfl
@[simp] theorem genStatusOwner_mem : (genStatusOwner s).mem = s.mem := rfl
@[simp] theorem genStatusOwner_tables : (genStatusOwner s).tables = s.tables := rfl
@[simp] theorem genStatusOwner_gen : (genStatusOwner s).gen = s.gen := rfl
@[simp] theorem genStatusOwner_log : (genStatusOwner s).log = s.log := rfl
@[simp] theorem genStatusOwner_irq : (genStatusOwner s).irq = s.irq := rfl
@[simp] theorem genStatusOwner_loader : (genStatusOwner s).loader = s.loader := rfl
@[simp] theorem genStatusOwner_divider : (genStatusOwner s).divider = s.divider := rfl
@[simp] theorem genStatusOwner_windowData : (genStatusOwner s).windowData = s.windowData := rfl
@[simp] theorem genStatusOwner_pending : (genStatusOwner s).pending = s.pending := rfl

/-! ### logPopOwner -/

@[simp] theorem logPopOwner_pins : (logPopOwner s).pins = s.pins := by
  unfold logPopOwner; (repeat' split) <;> simp
@[simp] theorem logPopOwner_fetch : (logPopOwner s).fetch = s.fetch := by
  unfold logPopOwner; (repeat' split) <;> simp
@[simp] theorem logPopOwner_mem : (logPopOwner s).mem = s.mem := by
  unfold logPopOwner; (repeat' split) <;> simp
@[simp] theorem logPopOwner_tables : (logPopOwner s).tables = s.tables := by
  unfold logPopOwner; (repeat' split) <;> simp
@[simp] theorem logPopOwner_gen : (logPopOwner s).gen = s.gen := by
  unfold logPopOwner; (repeat' split) <;> simp
@[simp] theorem logPopOwner_irq : (logPopOwner s).irq = s.irq := by
  unfold logPopOwner; (repeat' split) <;> simp
@[simp] theorem logPopOwner_loader : (logPopOwner s).loader = s.loader := by
  unfold logPopOwner; (repeat' split) <;> simp
@[simp] theorem logPopOwner_divider : (logPopOwner s).divider = s.divider := by
  unfold logPopOwner; (repeat' split) <;> simp
@[simp] theorem logPopOwner_windowData : (logPopOwner s).windowData = s.windowData := by
  unfold logPopOwner; (repeat' split) <;> simp
@[simp] theorem logPopOwner_pending : (logPopOwner s).pending = s.pending := by
  unfold logPopOwner; (repeat' split) <;> simp

/-! ### logClearOwner -/

@[simp] theorem logClearOwner_pins : (logClearOwner s).pins = s.pins := rfl
@[simp] theorem logClearOwner_fetch : (logClearOwner s).fetch = s.fetch := rfl
@[simp] theorem logClearOwner_mem : (logClearOwner s).mem = s.mem := rfl
@[simp] theorem logClearOwner_tables : (logClearOwner s).tables = s.tables := rfl
@[simp] theorem logClearOwner_gen : (logClearOwner s).gen = s.gen := rfl
@[simp] theorem logClearOwner_irq : (logClearOwner s).irq = s.irq := rfl
@[simp] theorem logClearOwner_loader : (logClearOwner s).loader = s.loader := rfl
@[simp] theorem logClearOwner_divider : (logClearOwner s).divider = s.divider := rfl
@[simp] theorem logClearOwner_windowData : (logClearOwner s).windowData = s.windowData := rfl
@[simp] theorem logClearOwner_pending : (logClearOwner s).pending = s.pending := rfl

/-! ### ldrStatusOwner -/

@[simp] theorem ldrStatusOwner_pins : (ldrStatusOwner s).pins = s.pins := rfl
@[simp] theorem ldrStatusOwner_fetch : (ldrStatusOwner s).fetch = s.fetch := rfl
@[simp] theorem ldrStatusOwner_mem : (ldrStatusOwner s).mem = s.mem := rfl
@[simp] theorem ldrStatusOwner_tables : (ldrStatusOwner s).tables = s.tables := rfl
@[simp] theorem ldrStatusOwner_gen : (ldrStatusOwner s).gen = s.gen := rfl
@[simp] theorem ldrStatusOwner_log : (ldrStatusOwner s).log = s.log := rfl
@[simp] theorem ldrStatusOwner_irq : (ldrStatusOwner s).irq = s.irq := rfl
@[simp] theorem ldrStatusOwner_loader : (ldrStatusOwner s).loader = s.loader := rfl
@[simp] theorem ldrStatusOwner_divider : (ldrStatusOwner s).divider = s.divider := rfl
@[simp] theorem ldrStatusOwner_windowData : (ldrStatusOwner s).windowData = s.windowData := rfl
@[simp] theorem ldrStatusOwner_pending : (ldrStatusOwner s).pending = s.pending := rfl

/-! ### State.romReadEnds -/

@[simp] theorem State.romReadEnds_pins (r : Request) (w : Word) : (s.romReadEnds r w).pins = s.pins := by simp [State.romReadEnds]
@[simp] theorem State.romReadEnds_loader (r : Request) (w : Word) : (s.romReadEnds r w).loader = s.loader := by simp [State.romReadEnds]
@[simp] theorem State.romReadEnds_divider (r : Request) (w : Word) : (s.romReadEnds r w).divider = s.divider := by simp [State.romReadEnds]
@[simp] theorem State.romReadEnds_windowData (r : Request) (w : Word) : (s.romReadEnds r w).windowData = s.windowData := by simp [State.romReadEnds]
@[simp] theorem State.romReadEnds_pending (r : Request) (w : Word) : (s.romReadEnds r w).pending = s.pending := by simp [State.romReadEnds]
@[simp] theorem State.romReadEnds_ram (r : Request) (w : Word) : (s.romReadEnds r w).mem.ram = s.mem.ram := by simp [State.romReadEnds]
@[simp] theorem State.romReadEnds_writeLatch (r : Request) (w : Word) : (s.romReadEnds r w).mem.writeLatch = s.mem.writeLatch := by simp [State.romReadEnds]
@[simp] theorem State.romReadEnds_dataReject (r : Request) (w : Word) : (s.romReadEnds r w).mem.dataReject = s.mem.dataReject := by simp [State.romReadEnds]
@[simp] theorem State.romReadEnds_crcJob (r : Request) (w : Word) : (s.romReadEnds r w).mem.crcJob = s.mem.crcJob := by simp [State.romReadEnds]

/-! ### State.romWriteEnds -/

@[simp] theorem State.romWriteEnds_pins (r : Request) (w fd : Word) : (s.romWriteEnds r w fd).pins = s.pins := by simp [State.romWriteEnds]
@[simp] theorem State.romWriteEnds_loader (r : Request) (w fd : Word) : (s.romWriteEnds r w fd).loader = s.loader := by simp [State.romWriteEnds]
@[simp] theorem State.romWriteEnds_divider (r : Request) (w fd : Word) : (s.romWriteEnds r w fd).divider = s.divider := by simp [State.romWriteEnds]
@[simp] theorem State.romWriteEnds_windowData (r : Request) (w fd : Word) : (s.romWriteEnds r w fd).windowData = s.windowData := by simp [State.romWriteEnds]
@[simp] theorem State.romWriteEnds_pending (r : Request) (w fd : Word) : (s.romWriteEnds r w fd).pending = s.pending := by simp [State.romWriteEnds]
@[simp] theorem State.romWriteEnds_ram (r : Request) (w fd : Word) : (s.romWriteEnds r w fd).mem.ram = s.mem.ram := by simp [State.romWriteEnds]
@[simp] theorem State.romWriteEnds_writeLatch (r : Request) (w fd : Word) : (s.romWriteEnds r w fd).mem.writeLatch = s.mem.writeLatch := by simp [State.romWriteEnds]
@[simp] theorem State.romWriteEnds_dataReject (r : Request) (w fd : Word) : (s.romWriteEnds r w fd).mem.dataReject = s.mem.dataReject := by simp [State.romWriteEnds]
@[simp] theorem State.romWriteEnds_crcJob (r : Request) (w fd : Word) : (s.romWriteEnds r w fd).mem.crcJob = s.mem.crcJob := by simp [State.romWriteEnds]

/-! ### State.fetchReadEnds -/

@[simp] theorem State.fetchReadEnds_pins (c : FetchClaim) : (s.fetchReadEnds c).pins = s.pins := by
  unfold State.fetchReadEnds; dsimp only; split <;> simp
@[simp] theorem State.fetchReadEnds_loader (c : FetchClaim) : (s.fetchReadEnds c).loader = s.loader := by
  unfold State.fetchReadEnds; dsimp only; split <;> simp
@[simp] theorem State.fetchReadEnds_divider (c : FetchClaim) : (s.fetchReadEnds c).divider = s.divider := by
  unfold State.fetchReadEnds; dsimp only; split <;> simp
@[simp] theorem State.fetchReadEnds_windowData (c : FetchClaim) : (s.fetchReadEnds c).windowData = s.windowData := by
  unfold State.fetchReadEnds; dsimp only; split <;> simp
@[simp] theorem State.fetchReadEnds_pending (c : FetchClaim) : (s.fetchReadEnds c).pending = s.pending := by
  unfold State.fetchReadEnds; dsimp only; split <;> simp
@[simp] theorem State.fetchReadEnds_ram (c : FetchClaim) : (s.fetchReadEnds c).mem.ram = s.mem.ram := by
  unfold State.fetchReadEnds; dsimp only; split <;> simp
@[simp] theorem State.fetchReadEnds_writeLatch (c : FetchClaim) : (s.fetchReadEnds c).mem.writeLatch = s.mem.writeLatch := by
  unfold State.fetchReadEnds; dsimp only; split <;> simp
@[simp] theorem State.fetchReadEnds_dataReject (c : FetchClaim) : (s.fetchReadEnds c).mem.dataReject = s.mem.dataReject := by
  unfold State.fetchReadEnds; dsimp only; split <;> simp
@[simp] theorem State.fetchReadEnds_crcJob (c : FetchClaim) : (s.fetchReadEnds c).mem.crcJob = s.mem.crcJob := by
  unfold State.fetchReadEnds; dsimp only; split <;> simp

/-! ### State.targetReset -/

@[simp] theorem State.targetReset_loader : (s.targetReset).loader = s.loader := by simp [State.targetReset]
@[simp] theorem State.targetReset_divider : (s.targetReset).divider = s.divider := by simp [State.targetReset]
@[simp] theorem State.targetReset_windowData : (s.targetReset).windowData = s.windowData := by simp [State.targetReset]
@[simp] theorem State.targetReset_pending : (s.targetReset).pending = s.pending := by simp [State.targetReset]
@[simp] theorem State.targetReset_ram : (s.targetReset).mem.ram = s.mem.ram := by simp [State.targetReset]
@[simp] theorem State.targetReset_writeLatch : (s.targetReset).mem.writeLatch = s.mem.writeLatch := by simp [State.targetReset]
@[simp] theorem State.targetReset_dataReject : (s.targetReset).mem.dataReject = s.mem.dataReject := by simp [State.targetReset]
@[simp] theorem State.targetReset_crcJob : (s.targetReset).mem.crcJob = s.mem.crcJob := by simp [State.targetReset]

/-! ### State.loaderInsert -/

@[simp] theorem State.loaderInsert_pins (r : InsertRequest) : (s.loaderInsert r).pins = s.pins := by
  unfold State.loaderInsert; split <;> simp
@[simp] theorem State.loaderInsert_fetch (r : InsertRequest) : (s.loaderInsert r).fetch = s.fetch := by
  unfold State.loaderInsert; split <;> simp
@[simp] theorem State.loaderInsert_log (r : InsertRequest) : (s.loaderInsert r).log = s.log := by
  unfold State.loaderInsert; split <;> simp
@[simp] theorem State.loaderInsert_cmd (r : InsertRequest) : (s.loaderInsert r).cmd = s.cmd := by
  unfold State.loaderInsert; split <;> simp
@[simp] theorem State.loaderInsert_divider (r : InsertRequest) : (s.loaderInsert r).divider = s.divider := by
  unfold State.loaderInsert; split <;> simp
@[simp] theorem State.loaderInsert_windowData (r : InsertRequest) : (s.loaderInsert r).windowData = s.windowData := by
  unfold State.loaderInsert; split <;> simp
@[simp] theorem State.loaderInsert_pending (r : InsertRequest) : (s.loaderInsert r).pending = s.pending := by
  unfold State.loaderInsert; split <;> simp
@[simp] theorem State.loaderInsert_ram (r : InsertRequest) : (s.loaderInsert r).mem.ram = s.mem.ram := by
  unfold State.loaderInsert; split <;> simp

/-! ### State.entryFixed -/

@[simp] theorem State.entryFixed_pins (r : InsertRequest) (n : Nat) : (s.entryFixed r n).pins = s.pins := by
  unfold State.entryFixed; (repeat' split) <;> simp
@[simp] theorem State.entryFixed_fetch (r : InsertRequest) (n : Nat) : (s.entryFixed r n).fetch = s.fetch := by
  unfold State.entryFixed; (repeat' split) <;> simp
@[simp] theorem State.entryFixed_log (r : InsertRequest) (n : Nat) : (s.entryFixed r n).log = s.log := by
  unfold State.entryFixed; (repeat' split) <;> simp
@[simp] theorem State.entryFixed_cmd (r : InsertRequest) (n : Nat) : (s.entryFixed r n).cmd = s.cmd := by
  unfold State.entryFixed; (repeat' split) <;> simp
@[simp] theorem State.entryFixed_divider (r : InsertRequest) (n : Nat) : (s.entryFixed r n).divider = s.divider := by
  unfold State.entryFixed; (repeat' split) <;> simp
@[simp] theorem State.entryFixed_windowData (r : InsertRequest) (n : Nat) : (s.entryFixed r n).windowData = s.windowData := by
  unfold State.entryFixed; (repeat' split) <;> simp
@[simp] theorem State.entryFixed_pending (r : InsertRequest) (n : Nat) : (s.entryFixed r n).pending = s.pending := by
  unfold State.entryFixed; (repeat' split) <;> simp
@[simp] theorem State.entryFixed_ram (r : InsertRequest) (n : Nat) : (s.entryFixed r n).mem.ram = s.mem.ram := by
  unfold State.entryFixed; (repeat' split) <;> simp

/-! ### State.segmentFixed -/

@[simp] theorem State.segmentFixed_pins (n : Nat) (c : Crc32) : (s.segmentFixed n c).pins = s.pins := by
  unfold State.segmentFixed; (repeat' split) <;> simp
@[simp] theorem State.segmentFixed_fetch (n : Nat) (c : Crc32) : (s.segmentFixed n c).fetch = s.fetch := by
  unfold State.segmentFixed; (repeat' split) <;> simp
@[simp] theorem State.segmentFixed_log (n : Nat) (c : Crc32) : (s.segmentFixed n c).log = s.log := by
  unfold State.segmentFixed; (repeat' split) <;> simp
@[simp] theorem State.segmentFixed_cmd (n : Nat) (c : Crc32) : (s.segmentFixed n c).cmd = s.cmd := by
  unfold State.segmentFixed; (repeat' split) <;> simp
@[simp] theorem State.segmentFixed_divider (n : Nat) (c : Crc32) : (s.segmentFixed n c).divider = s.divider := by
  unfold State.segmentFixed; (repeat' split) <;> simp
@[simp] theorem State.segmentFixed_windowData (n : Nat) (c : Crc32) : (s.segmentFixed n c).windowData = s.windowData := by
  unfold State.segmentFixed; (repeat' split) <;> simp
@[simp] theorem State.segmentFixed_pending (n : Nat) (c : Crc32) : (s.segmentFixed n c).pending = s.pending := by
  unfold State.segmentFixed; (repeat' split) <;> simp
@[simp] theorem State.segmentFixed_ram (n : Nat) (c : Crc32) : (s.segmentFixed n c).mem.ram = s.mem.ram := by
  unfold State.segmentFixed; (repeat' split) <;> simp

/-! ### State.succeedSlot -/

@[simp] theorem State.succeedSlot_pins (h : ImageHeader) : (s.succeedSlot h).pins = s.pins := by simp [State.succeedSlot]
@[simp] theorem State.succeedSlot_divider (h : ImageHeader) : (s.succeedSlot h).divider = s.divider := by simp [State.succeedSlot]
@[simp] theorem State.succeedSlot_windowData (h : ImageHeader) : (s.succeedSlot h).windowData = s.windowData := by simp [State.succeedSlot]
@[simp] theorem State.succeedSlot_pending (h : ImageHeader) : (s.succeedSlot h).pending = s.pending := by simp [State.succeedSlot]
@[simp] theorem State.succeedSlot_ram (h : ImageHeader) : (s.succeedSlot h).mem.ram = s.mem.ram := by simp [State.succeedSlot]
@[simp] theorem State.succeedSlot_writeLatch (h : ImageHeader) : (s.succeedSlot h).mem.writeLatch = s.mem.writeLatch := by simp [State.succeedSlot]
@[simp] theorem State.succeedSlot_dataReject (h : ImageHeader) : (s.succeedSlot h).mem.dataReject = s.mem.dataReject := by simp [State.succeedSlot]
@[simp] theorem State.succeedSlot_crcJob (h : ImageHeader) : (s.succeedSlot h).mem.crcJob = s.mem.crcJob := by simp [State.succeedSlot]

/-! ### State.endFixed -/

@[simp] theorem State.endFixed_pins : (s.endFixed).pins = s.pins := by
  unfold State.endFixed; (repeat' split) <;> simp
@[simp] theorem State.endFixed_divider : (s.endFixed).divider = s.divider := by
  unfold State.endFixed; (repeat' split) <;> simp
@[simp] theorem State.endFixed_windowData : (s.endFixed).windowData = s.windowData := by
  unfold State.endFixed; (repeat' split) <;> simp
@[simp] theorem State.endFixed_pending : (s.endFixed).pending = s.pending := by
  unfold State.endFixed; (repeat' split) <;> simp
@[simp] theorem State.endFixed_ram : (s.endFixed).mem.ram = s.mem.ram := by
  unfold State.endFixed; (repeat' split) <;> simp

end

end Sys2Proof.Machine
end

