-- ==== Sys2Proof/Laws/Tables.lean ====
section
/-! SUPPORT. The tables: what the switch, the revert, the staged edits and the counting of hits leave in them, and that
their form (R9) does not depend on the hits. -/

namespace Sys2Proof.Machine

/-! ### Hits -/

@[simp] theorem Entry.hit_unhit (e : Entry) : e.hit.unhit = e.unhit := rfl
@[simp] theorem Entry.unhit_unhit (e : Entry) : e.unhit.unhit = e.unhit := rfl
@[simp] theorem Entry.unhit_hits (e : Entry) : e.unhit.hits = 0 := rfl
@[simp] theorem Entry.unhit_base (e : Entry) : e.unhit.base = e.base := rfl
@[simp] theorem Entry.unhit_top (e : Entry) : e.unhit.top = e.top := rfl
@[simp] theorem Entry.unhit_segment (e : Entry) : e.unhit.segment? = e.segment? := rfl
@[simp] theorem Entry.unhit_length (e : Entry) : e.unhit.length = e.length := rfl
@[simp] theorem Entry.unhit_applies (e : Entry) : e.unhit.applies = e.applies := rfl
@[simp] theorem Entry.unhit_body (e : Entry) : e.unhit.body = e.body := rfl

theorem Entry.hit_hits_le (e : Entry) (h : e.hits ≤ Config.hitsMax) : e.hit.hits ≤ Config.hitsMax := by
  unfold Entry.hit; dsimp only; split <;> omega

/-- A change of the hits alone changes no other field. -/
theorem map_unhit_modify (es : List Entry) (i : Nat) (f : Entry → Entry) (hf : ∀ e : Entry, (f e).unhit = e.unhit) :
    (es.modify i f).map Entry.unhit = es.map Entry.unhit := by
  induction es generalizing i with
  | nil => simp
  | cons e es ih => cases i <;> simp [List.modify_cons, ih, hf]

theorem map_unhit_modify_hit (es : List Entry) (i : Nat) :
    (es.modify i Entry.hit).map Entry.unhit = es.map Entry.unhit := map_unhit_modify es i _ Entry.hit_unhit

theorem map_unhit_modify_unhit (es : List Entry) (i : Nat) :
    (es.modify i Entry.unhit).map Entry.unhit = es.map Entry.unhit := map_unhit_modify es i _ Entry.unhit_unhit

theorem map_unhit_map_unhit (es : List Entry) : (es.map Entry.unhit).map Entry.unhit = es.map Entry.unhit := by
  simp [Function.comp_def]

/-- The counts of a list are within the saturation value (R8). -/
def HitsBounded (es : List Entry) : Prop := ∀ e ∈ es, e.hits ≤ Config.hitsMax

theorem hitsBounded_modify (es : List Entry) (i : Nat) (f : Entry → Entry)
    (hf : ∀ e : Entry, e.hits ≤ Config.hitsMax → (f e).hits ≤ Config.hitsMax) (h : HitsBounded es) :
    HitsBounded (es.modify i f) := by
  induction es generalizing i with
  | nil => simpa using h
  | cons e es ih =>
    have he := h e (by simp)
    have hr : HitsBounded es := fun x hx => h x (by simp [hx])
    cases i with
    | zero =>
      intro x hx
      simp only [List.modify_zero_cons, List.mem_cons] at hx
      rcases hx with rfl | hx
      · exact hf _ he
      · exact hr x hx
    | succ i =>
      intro x hx
      simp only [List.modify_succ_cons, List.mem_cons] at hx
      rcases hx with rfl | hx
      · exact he
      · exact ih i hr x hx

/-- R9 reads the hits only for their bound. -/
theorem tableForm_iff (es : List Entry) :
    TableForm es ↔ TableForm (es.map Entry.unhit) ∧ HitsBounded es := by
  constructor
  · rintro ⟨h1, h2, h3⟩
    refine ⟨⟨by simpa using h1, ?_, ?_⟩, fun e he => (h2 e he).2.2.2.1⟩
    · intro e he
      obtain ⟨f, hf, rfl⟩ := List.mem_map.mp he
      exact ⟨(h2 f hf).1, (h2 f hf).2.1, (h2 f hf).2.2.1, Nat.zero_le _, (h2 f hf).2.2.2.2⟩
    · exact List.pairwise_map.mpr h3
  · rintro ⟨⟨h1, h2, h3⟩, hb⟩
    refine ⟨by simpa using h1, ?_, List.pairwise_map.mp h3⟩
    intro e he
    have := h2 e.unhit (List.mem_map.mpr ⟨e, he, rfl⟩)
    exact ⟨this.1, this.2.1, this.2.2.1, hb e he, this.2.2.2.2⟩

theorem tableForm_of_unhit (es fs : List Entry) (h : TableForm es) (e : fs.map Entry.unhit = es.map Entry.unhit)
    (hb : HitsBounded fs) : TableForm fs :=
  (tableForm_iff fs).mpr ⟨e ▸ ((tableForm_iff es).mp h).1, hb⟩

theorem tableForm_unhit (es : List Entry) (h : TableForm es) : TableForm (es.map Entry.unhit) :=
  ((tableForm_iff es).mp h).1

/-- Two tables that differ in LIVE's hits only, which stay bounded. -/
structure HitsOnly (t u : TableStore) : Prop where
  staged : u.staged = t.staged
  lock : u.stagedLock = t.stagedLock
  prior : u.prior = t.prior
  generation : u.live.generation = t.live.generation
  entries : u.live.entries.map Entry.unhit = t.live.entries.map Entry.unhit
  bounded : HitsBounded t.live.entries → HitsBounded u.live.entries

theorem HitsOnly.rfl' (t : TableStore) : HitsOnly t t := ⟨rfl, rfl, rfl, rfl, rfl, id⟩

theorem HitsOnly.trans' {t u v : TableStore} (a : HitsOnly t u) (b : HitsOnly u v) : HitsOnly t v :=
  ⟨b.staged.trans a.staged, b.lock.trans a.lock, b.prior.trans a.prior, b.generation.trans a.generation,
    b.entries.trans a.entries, fun h => b.bounded (a.bounded h)⟩

theorem hitsOnly_countHit (s : State) (i : Nat) : HitsOnly s.tables (s.countHit i).tables :=
  ⟨rfl, rfl, rfl, rfl, map_unhit_modify_hit _ _, hitsBounded_modify _ _ _ Entry.hit_hits_le⟩

theorem hitsOnly_countResolution (s : State) (x : Resolution) : HitsOnly s.tables (s.countResolution x).tables := by
  unfold State.countResolution
  split
  · exact HitsOnly.rfl' _
  · exact hitsOnly_countHit _ _

theorem hitsOnly_deliver (s : State) (r : Request) (w : Word) : HitsOnly s.tables (s.deliver r w).tables := by
  simpa [State.deliver] using hitsOnly_countResolution s (s.resolveWord r)

/-- Serving words changes the tables in LIVE's hits only. -/
theorem hitsOnly_serve (n : Nat) (s : State) : HitsOnly s.tables (serve n s).tables := by
  induction n generalizing s with
  | zero => exact HitsOnly.rfl' _
  | succ n ih =>
    unfold serve
    split
    · exact HitsOnly.rfl' _
    · split
      · rw [State.startWord_tables]; exact HitsOnly.rfl' _
      · rw [State.startWord_tables]; exact HitsOnly.rfl' _
      · rw [State.startWord_tables]; exact HitsOnly.rfl' _
      · exact (hitsOnly_deliver s _ _).trans' (ih _)
      · exact (hitsOnly_deliver s _ _).trans' (ih _)

/-! ### Resolution and hits -/

/-- R4: a resolution does not read the hits. -/
theorem resolve_unhit (es : List Entry) (a : FetchAddr) (k : FetchKind) :
    resolve (es.map Entry.unhit) a k = resolve es a k := by
  have h : lookup (es.map Entry.unhit) a = (lookup es a).map (Prod.map Entry.unhit id) := by
    unfold lookup
    rw [List.zipIdx_map, List.find?_map]
    rfl
  unfold resolve
  rw [h]
  cases lookup es a <;> rfl

/-- R4: tables that differ in hits alone resolve alike. -/
theorem resolve_congr {es fs : List Entry} (h : es.map Entry.unhit = fs.map Entry.unhit) (a : FetchAddr)
    (k : FetchKind) : resolve es a k = resolve fs a k := by
  rw [← resolve_unhit es, h, resolve_unhit]

theorem resolve_hitsAt (t : TableStore) (i n : Nat) (a : FetchAddr) (k : FetchKind) :
    resolve (hitsAt t i n).live.entries a k = resolve t.live.entries a k :=
  resolve_congr
    (map_unhit_modify t.live.entries i (fun e => { e with hits := min (e.hits + n) 16777215 }) fun _ => rfl) a k

theorem countsInRange_hitsAt {t : TableStore} (h : CountsInRange t) (i n : Nat) : CountsInRange (hitsAt t i n) :=
  hitsBounded_modify _ _ _ (fun _ _ => Nat.min_le_right _ _) h

theorem hitsAt_hitsAt (t : TableStore) (i n m : Nat) : hitsAt (hitsAt t i n) i m = hitsAt t i (n + m) := by
  have key : ∀ es : List Entry,
      (es.modify i fun e => { e with hits := min (e.hits + n) 16777215 }).modify i
          (fun e => { e with hits := min (e.hits + m) 16777215 })
        = es.modify i fun e => { e with hits := min (e.hits + (n + m)) 16777215 } := by
    intro es
    apply List.ext_getElem?
    intro j
    simp only [List.getElem?_modify]
    cases es[j]? with
    | none => simp
    | some e =>
      by_cases hij : i = j
      · simp only [hij, if_true, Option.map_eq_map, Option.map_some]; congr 2; omega
      · simp [hij]
  simp only [hitsAt, key]

/-! ### Movements -/

@[simp] theorem State.clearStaged_tables (s : State) :
    s.clearStaged.tables = { s.tables with staged := [] } := by
  simp [State.clearStaged, State.setStaged]

@[simp] theorem State.copyLive_tables (s : State) :
    s.copyLive.tables = { s.tables with staged := s.tables.live.entries.map Entry.unhit } := by
  simp [State.copyLive, State.setStaged]

@[simp] theorem State.placeEntry_tables (s : State) (e : Entry) (i : Nat) :
    (s.placeEntry e i).tables = { s.tables with staged := s.tables.staged.insertIdx i e } := by
  simp [State.placeEntry, State.setStaged]

@[simp] theorem State.removeEntry_tables (s : State) (e : Entry) (i : Nat) :
    (s.removeEntry e i).tables = { s.tables with staged := s.tables.staged.eraseIdx i } := by
  simp [State.removeEntry, State.setStaged]

/-- R14: the tables after a switch. -/
@[simp] theorem State.switchTables_tables (s : State) (n : Generation) :
    (s.switchTables n).tables =
      { staged := [], stagedLock := false
        live := { entries := s.tables.staged.map Entry.unhit, generation := n }
        prior := some s.tables.live } := by
  simp [State.switchTables]

/-- R93: the tables after the switch of a commit. -/
@[simp] theorem State.takeSwitch_tables (s : State) (c : PendingCommit) :
    (s.takeSwitch c).tables =
      { staged := [], stagedLock := false
        live := { entries := s.tables.staged.map Entry.unhit
                  generation := switchNumber s.gen.counter s.tables.live.generation }
        prior := some s.tables.live } := by
  simp [State.takeSwitch]

/-- R93: the Generation Controller's record after the switch of a commit. -/
@[simp] theorem State.takeSwitch_gen (s : State) (c : PendingCommit) :
    (s.takeSwitch c).gen =
      { state := if c.probation = 0 then .steady else .probation
        counter := switchNumber s.gen.counter s.tables.live.generation
        timer := c.probation, resetCount := 0, tolerance := c.tolerance, lastOutcome := .none } := by
  simp [State.takeSwitch]

@[simp] theorem State.takeRevert_tables (s : State) (o : RevertOrigin) :
    (s.takeRevert o).tables = s.revertTables.tables := by
  unfold State.takeRevert; cases o <;> simp

@[simp] theorem State.takeRevert_gen (s : State) (o : RevertOrigin) :
    (s.takeRevert o).gen = { s.gen with state := .steady } := by
  unfold State.takeRevert State.setGenState; cases o <;> simp

/-- The tables after a movement: unchanged, switched, or reverted. -/
theorem takeMovement_tables (s : State) :
    s.takeMovement.tables = s.tables
      ∨ (∃ c, s.gen.state = .commitPending c ∧ s.takeMovement.tables = (s.takeSwitch c).tables)
      ∨ (∃ o, s.gen.state = .revertWaiting o ∧ s.takeMovement.tables = s.revertTables.tables) := by
  unfold State.takeMovement
  split
  · exact .inl rfl
  · split
    · exact .inr (.inl ⟨_, by assumption, rfl⟩)
    · exact .inl rfl
  · exact .inl rfl
  · exact .inr (.inr ⟨_, by assumption, State.takeRevert_tables _ _⟩)

/-- The tables after the assertion of TRST# at the Generation Controller: unchanged or switched. -/
theorem targetResetGen_tables (s : State) :
    s.targetResetGen.tables = s.tables
      ∨ ∃ c, s.gen.state = .commitPending c ∧ s.targetResetGen.tables = (s.takeSwitch c).tables := by
  unfold State.targetResetGen
  split
  · exact .inl rfl
  · split
    · exact .inr ⟨_, by assumption, rfl⟩
    · exact .inl rfl
  · exact .inl (State.countReset_tables _)
  · exact .inl rfl

/-- The tables after the AT_ADDRESS check of an acceptance: unchanged or switched. -/
theorem switchAtAccept_tables (s : State) (p : Presentation) :
    (s.switchAtAccept p).tables = s.tables
      ∨ ∃ c, s.gen.state = .commitPending c ∧ (s.switchAtAccept p).tables = (s.takeSwitch c).tables := by
  unfold State.switchAtAccept
  split
  · exact .inl rfl
  · split
    · exact .inl rfl
    · split
      · exact .inr ⟨_, by assumption, rfl⟩
      · exact .inl rfl
    · exact .inl rfl
  · exact .inl rfl
  · exact .inl rfl

theorem hitsOnly_accept (s : State) (p : Presentation) :
    HitsOnly (s.switchAtAccept p).tables (s.accept p).tables := by
  unfold State.accept
  dsimp only
  split
  · generalize hq : (s.switchAtAccept p).setFetch _ = q
    have : q.tables = (s.switchAtAccept p).tables := by rw [← hq]; rfl
    rw [← this]
    split
    · rw [State.startWord_tables]; exact HitsOnly.rfl' _
    · exact hitsOnly_serve 8 q
  · exact HitsOnly.rfl' _

end Sys2Proof.Machine
end

