-- ==== Sys2Proof/Laws/Segments.lean ====
section
/-! SUPPORT. Reference claims: what one claim, and a list of claims, leave in the descriptors and at the data pointer
(R52, R53). -/

namespace Sys2Proof.Machine

@[simp] theorem Segment.lowered_zero (g : Segment) : g.lowered 0 = g := by cases g <;> simp [Segment.lowered]

@[simp] theorem Segment.raised_zero (g : Segment) : g.raised 0 = g := by cases g <;> simp [Segment.raised]

/-- R53: claims add up, so their order does not matter. -/
theorem Segment.lowered_lowered (g : Segment) (a b : Nat) : (g.lowered a).lowered b = g.lowered (a + b) := by
  cases g with
  | free => rfl
  | opened r => rfl
  | sealing r n => rfl
  | sealed r d => simp [Segment.lowered, Nat.sub_sub]
  | condemned r d =>
    by_cases ha : a = 0
    · simp [ha]
    · by_cases hb : b = 0
      · simp [hb]
      · by_cases h : d.references ≤ a
        · simp [Segment.lowered, ha, h, show d.references ≤ a + b by omega]
        · simp only [Segment.lowered, ha, h, hb, if_false, Nat.add_eq_zero_iff, false_and]
          by_cases h2 : d.references - a ≤ b
          · simp [h2, show d.references ≤ a + b by omega]
          · simp [h2, show ¬ d.references ≤ a + b by omega, Nat.sub_sub]

theorem Segment.raised_raised (g : Segment) (a b : Nat) : (g.raised a).raised b = g.raised (a + b) := by
  cases g <;> simp [Segment.raised, Nat.add_assoc]

@[simp] theorem State.segment_unsetPointerOn (s : State) (h k : Handle) :
    (s.unsetPointerOn h).segment k = s.segment k := by
  simp [State.segment]

@[simp] theorem State.segment_unsetPointer (s : State) (k : Handle) : s.unsetPointer.segment k = s.segment k := rfl

theorem State.segment_releaseSegment (s : State) (h k : Handle) :
    (s.releaseSegment h).segment k = if k = h then .free else s.segment k := by
  simp [State.releaseSegment, State.segment_setSegment]

/-- R53: one decrement claim. -/
theorem State.segment_decrement (s : State) (h k : Handle) :
    (s.decrement h).segment k = if k = h then (s.segment h).lowered 1 else s.segment k := by
  unfold State.decrement
  split
  · rename_i g; by_cases e : k = h <;> simp [e, g, Segment.lowered]
  · rename_i g; by_cases e : k = h <;> simp [e, g, Segment.lowered]
  · rename_i g; by_cases e : k = h <;> simp [e, g, Segment.lowered]
  · rename_i g; simp [State.segment_setSegment, g, Segment.lowered]
  · rename_i g
    split
    · rename_i hr; simp [State.segment_releaseSegment, g, Segment.lowered, hr]
    · rename_i hr; simp [State.segment_setSegment, g, Segment.lowered, hr]

/-- R52: one increment claim. -/
theorem State.segment_increment (s : State) (h k : Handle) :
    (s.increment h).segment k = if k = h then (s.segment h).raised 1 else s.segment k := by
  unfold State.increment
  split
  · rename_i g; by_cases e : k = h <;> simp [e, g, Segment.raised]
  · rename_i g; by_cases e : k = h <;> simp [e, g, Segment.raised]
  · rename_i g; by_cases e : k = h <;> simp [e, g, Segment.raised]
  · rename_i g; simp [State.segment_setSegment, g, Segment.raised]
  · rename_i g; simp [State.segment_setSegment, g, Segment.raised]

theorem namedBy_nil (h : Handle) : namedBy [] h = 0 := rfl

theorem namedBy_cons (e : Entry) (es : List Entry) (h : Handle) :
    namedBy (e :: es) h = (if e.segment? = some h then 1 else 0) + namedBy es h := by
  unfold namedBy
  rw [List.countP_cons, Nat.add_comm]
  simp

theorem namedBy_append (es fs : List Entry) (h : Handle) : namedBy (es ++ fs) h = namedBy es h + namedBy fs h := by
  simp [namedBy]

theorem namedBy_unhit (es : List Entry) (h : Handle) : namedBy (es.map Entry.unhit) h = namedBy es h := by
  simp [namedBy, List.countP_map, Function.comp_def]

theorem State.segment_dropEntry (s : State) (e : Entry) (k : Handle) :
    (s.dropEntry e).segment k = (s.segment k).lowered (if e.segment? = some k then 1 else 0) := by
  unfold State.dropEntry
  split
  · rename_i g; simp [g]
  · rename_i h g
    rw [State.segment_decrement, g]
    by_cases e : k = h
    · subst e; simp
    · simp [e, show h ≠ k from fun q => e q.symm]

theorem State.segment_addEntry (s : State) (e : Entry) (k : Handle) :
    (s.addEntry e).segment k = (s.segment k).raised (if e.segment? = some k then 1 else 0) := by
  unfold State.addEntry
  split
  · rename_i g; simp [g]
  · rename_i h g
    rw [State.segment_increment, g]
    by_cases e : k = h
    · subst e; simp
    · simp [e, show h ≠ k from fun q => e q.symm]

/-- R15, R53: the descriptors after the decrement claims of a list of entries. -/
theorem State.segment_dropEntries (s : State) (es : List Entry) (k : Handle) :
    (s.dropEntries es).segment k = (s.segment k).lowered (namedBy es k) := by
  induction es generalizing s with
  | nil => simp [State.dropEntries, namedBy_nil]
  | cons e es ih =>
    have : s.dropEntries (e :: es) = (s.dropEntry e).dropEntries es := rfl
    rw [this, ih, State.segment_dropEntry, Segment.lowered_lowered, namedBy_cons]

/-- R52: the descriptors after the increment claims of a list of entries. -/
theorem State.segment_addEntries (s : State) (es : List Entry) (k : Handle) :
    (s.addEntries es).segment k = (s.segment k).raised (namedBy es k) := by
  induction es generalizing s with
  | nil => simp [State.addEntries, namedBy_nil]
  | cons e es ih =>
    have : s.addEntries (e :: es) = (s.addEntry e).addEntries es := rfl
    rw [this, ih, State.segment_addEntry, Segment.raised_raised, namedBy_cons]

theorem State.segment_congr (s t : State) (h : s.mem.segments = t.mem.segments) (k : Handle) :
    s.segment k = t.segment k := by
  simp [State.segment, h]

/-- Two descriptor tables are the same when every handle's descriptor is. -/
theorem segments_ext (v w : Vector Segment 48) (h : ∀ k : Handle, v[k] = w[k]) : v = w :=
  Vector.ext fun i hi => h ⟨i, hi⟩

theorem State.segments_dropEntries (s : State) (es : List Entry) :
    (s.dropEntries es).mem.segments = loweredBy s es := by
  apply segments_ext
  intro k
  have := State.segment_dropEntries s es k
  simpa [loweredBy, State.segment] using this

theorem Segment.lowered_isFree (g : Segment) (k : Nat) (h : g.isFree = true) : (g.lowered k).isFree = true := by
  cases g <;> simp_all [Segment.lowered, Segment.isFree, Segment.run]

/-- R53, R54: one decrement claim unsets the data pointer exactly where it frees the segment under it. -/
theorem State.mem_dropEntry (s : State) (e : Entry) : (s.dropEntry e).mem = memoryLowered s [e] := by
  have hs := State.segments_dropEntries s [e]
  have hd : s.dropEntries [e] = s.dropEntry e := rfl
  rw [hd] at hs
  have hp : (s.dropEntry e).mem.pointer = (if freesPointed s [e] then none else s.mem.pointer)
      ∧ (s.dropEntry e).mem.readLatch = (if freesPointed s [e] then none else s.mem.readLatch) := by
    unfold freesPointed
    cases hq : s.mem.pointer with
    | none =>
      refine ⟨?_, ?_⟩ <;> unfold State.dropEntry State.decrement State.releaseSegment State.unsetPointerOn <;>
        (repeat' split) <;> simp_all
    | some p =>
      unfold State.dropEntry
      split
      · rename_i g; simp [namedBy_cons, namedBy_nil, g, hq]
      · rename_i h g
        by_cases e' : h = p.handle
        · subst e'
          unfold State.decrement
          split <;> rename_i gs <;>
            simp [namedBy_cons, namedBy_nil, g, gs, hq, Segment.lowered, Segment.isFree, Segment.run]
          split
          · rename_i hr; simp [State.releaseSegment, State.unsetPointerOn, hq]
          · rename_i hr; simp [hq]
        · have : ¬ (some h = some p.handle) := by simpa using e'
          unfold State.decrement
          split <;> simp [namedBy_cons, namedBy_nil, g, this, hq]
          split
          · simp [State.releaseSegment, State.unsetPointerOn, hq, Ne.symm e']
          · simp [hq]
  have ext : ∀ a b : PatchMemory, a.ram = b.ram → a.segments = b.segments → a.pointer = b.pointer →
      a.writeLatch = b.writeLatch → a.readLatch = b.readLatch → a.dataReject = b.dataReject →
      a.crcJob = b.crcJob → a.arbiter = b.arbiter → a = b := by
    intro a b; cases a; cases b; simp_all
  exact ext _ _ (by simp [memoryLowered]) (by rw [hs]; rfl) hp.1 (by simp [memoryLowered]) hp.2
    (by simp [memoryLowered]) (by simp [memoryLowered]) (by simp [memoryLowered])

/-- R15, R53, R54: the decrement claims of a list, as one change of patch memory. -/
theorem State.mem_dropEntries (s : State) (es : List Entry) : (s.dropEntries es).mem = memoryLowered s es := by
  induction es generalizing s with
  | nil =>
    have h0 : loweredBy s [] = s.mem.segments := by
      apply segments_ext; intro k; simp [loweredBy, namedBy_nil, State.segment]
    have h1 : freesPointed s [] = false := by
      unfold freesPointed; split
      · rfl
      · simp [namedBy_nil]
    simp [State.dropEntries, memoryLowered, h0, h1]
  | cons e es ih =>
    have hd : s.dropEntries (e :: es) = (s.dropEntry e).dropEntries es := rfl
    have hseg : ∀ k, (s.dropEntry e).segment k = (s.segment k).lowered (namedBy [e] k) := by
      intro k; rw [State.segment_dropEntry]; simp [namedBy_cons, namedBy_nil]
    have hname : ∀ k, namedBy (e :: es) k = namedBy [e] k + namedBy es k := by
      intro k; simp [namedBy_cons, namedBy_nil]
    have hfree : freesPointed s (e :: es) = (freesPointed s [e] || freesPointed (s.dropEntry e) es) := by
      have hp : (s.dropEntry e).mem.pointer = (memoryLowered s [e]).pointer := by rw [State.mem_dropEntry]
      unfold freesPointed
      rw [hp]
      unfold memoryLowered
      cases hq : s.mem.pointer with
      | none => simp
      | some p =>
        dsimp only
        by_cases hf : freesPointed s [e] = true
        · have hf' := hf
          unfold freesPointed at hf'
          simp only [hq, Bool.and_eq_true, Bool.not_eq_true'] at hf'
          simp only [hf, if_true, hf'.1, hf'.2, Bool.not_false, Bool.true_and, Bool.or_false]
          rw [hname, ← Segment.lowered_lowered]
          exact Segment.lowered_isFree _ _ hf'.2
        · have hf' : freesPointed s [e] = false := by simpa using hf
          have hf2 := hf'
          unfold freesPointed at hf2
          simp only [hq] at hf2
          simp only [hf', if_false, hf2, Bool.false_or, Bool.false_eq_true]
          rw [hname, ← Segment.lowered_lowered, hseg]
          cases hs : (s.segment p.handle).isFree with
          | true => simp [Segment.lowered_isFree _ _ hs]
          | false =>
            have : ((s.segment p.handle).lowered (namedBy [e] p.handle)).isFree = false := by simpa [hs] using hf2
            simp [this]
    rw [hd, ih]
    unfold memoryLowered
    rw [hfree]
    have hl : loweredBy (s.dropEntry e) es = loweredBy s (e :: es) := by
      apply segments_ext; intro k
      simp [loweredBy, hseg, hname, Segment.lowered_lowered]
    rw [hl, State.mem_dropEntry]
    unfold memoryLowered
    cases freesPointed s [e] <;> cases freesPointed (s.dropEntry e) es <;> simp

/-- R14: the switch of the tables, as one change of the state. -/
theorem State.switchTables_eq (s : State) (n : Generation) :
    s.switchTables n = { s with
      tables := { staged := [], stagedLock := false, live := { entries := s.tables.staged.map Entry.unhit, generation := n },
                  prior := some s.tables.live }
      mem := memoryLowered s s.tables.priorEntries } := by
  apply State.ext_blocks <;> simp [State.switchTables, State.mem_dropEntries]

/-- R93: the switch, as one change of the state. -/
theorem State.takeSwitch_eq (s : State) (c : PendingCommit) :
    s.takeSwitch c = switchedState s c (switchNumber s.gen.counter s.tables.live.generation) := by
  unfold State.takeSwitch
  dsimp only
  rw [State.switchTables_eq]
  rfl

/-- R102: the taking of a waiting revert, as one change of the state. -/
theorem State.takeRevert_eq (s : State) (o : RevertOrigin) (p : NumberedTable) (h : s.tables.prior = some p) :
    s.takeRevert o = revertedState s p o := by
  unfold State.takeRevert State.revertTables
  rw [h]
  cases o <;> rfl

/-- R81: STG_CLEAR, as one change of the state. -/
theorem State.clearStaged_eq (s : State) :
    s.clearStaged = { s with
      tables := { s.tables with staged := [] }
      mem := memoryLowered s s.tables.staged } := by
  apply State.ext_blocks <;> simp [State.clearStaged, State.mem_dropEntries, State.setStaged]
  rfl

end Sys2Proof.Machine
end

