-- ==== Sys2Proof/Laws/Arbiter.lean ====
section
/-! SUPPORT. What the patch RAM arbiter's operations do, said once in the vocabulary of Safety.lean (R65), and what a
window access begins with. -/

namespace Sys2Proof.Machine

theorem finish_grant (a : Arbiter) : a.finish.grant = a.passed := by
  obtain ⟨x, f, d, w⟩ := a
  cases f <;> cases d <;> cases w <;> rfl

theorem grant_eq (a : Arbiter) : a.grant = if a.serving = none then a.passed else a := by
  obtain ⟨x, f, d, w⟩ := a
  cases x <;> cases f <;> cases d <;> cases w <;> rfl

theorem claimFetch_eq (a : Arbiter) (c : FetchClaim) : a.claimFetch c = a.fetchAsked c := by
  obtain ⟨x, f, d, w⟩ := a
  cases x <;> rfl

theorem claimData_eq (a : Arbiter) : a.claimData = a.dataAsked := by
  obtain ⟨x, f, d, w⟩ := a
  cases x <;> cases f <;> rfl

theorem claimCrc_eq (a : Arbiter) : a.claimCrc = a.asked := by
  obtain ⟨x, f, d, w⟩ := a
  cases x <;> cases f <;> cases d <;> rfl

theorem arbiter_dataEnded_eq (a : Arbiter) : a.dataEnded = a.idled := by
  obtain ⟨x, f, d, w⟩ := a
  cases x with
  | none => rfl
  | some x => cases x <;> first | rfl | exact finish_grant _

/-- The port is free, or serves an access of another class, as before. -/
theorem idled_eq_self {a : Arbiter} (h : a.serving ≠ some .dataAccess) : a.idled = a := if_neg h

theorem passed_serving_ne_discarded (a : Arbiter) : a.passed.serving ≠ some .discarded := by
  obtain ⟨x, f, d, w⟩ := a
  cases f <;> cases d <;> cases w <;> simp [Arbiter.passed]

/-- A discarded read that has the port had it before. -/
theorem idled_discarded {a : Arbiter} (h : a.idled.serving = some .discarded) : a.serving = some .discarded := by
  unfold Arbiter.idled at h
  split at h
  · exact absurd h (passed_serving_ne_discarded a)
  · exact h

theorem freePort_eq (s : State) : s.freePort = { s with mem := { s.mem with arbiter := s.mem.arbiter.passed } } := by
  rw [State.freePort, finish_grant]; rfl

theorem claimData_state_eq (s : State) :
    s.claimData = { s with mem := { s.mem with arbiter := s.mem.arbiter.dataAsked } } := by
  rw [State.claimData, claimData_eq]; rfl

theorem dataEnded_begun (s : State) : s.dataEnded = windowBegun s := by
  rw [State.dataEnded, arbiter_dataEnded_eq]; rfl

/-- Without a data-port access in progress a window access finds the state as it is. -/
theorem windowBegun_eq_self {s : State} (h : s.mem.arbiter.serving ≠ some .dataAccess) : windowBegun s = s := by
  rw [windowBegun, idled_eq_self h]

section

variable (s : State)

@[simp] theorem windowBegun_pins : (windowBegun s).pins = s.pins := rfl
@[simp] theorem windowBegun_fetch : (windowBegun s).fetch = s.fetch := rfl
@[simp] theorem windowBegun_tables : (windowBegun s).tables = s.tables := rfl
@[simp] theorem windowBegun_gen : (windowBegun s).gen = s.gen := rfl
@[simp] theorem windowBegun_log : (windowBegun s).log = s.log := rfl
@[simp] theorem windowBegun_irq : (windowBegun s).irq = s.irq := rfl
@[simp] theorem windowBegun_cmd : (windowBegun s).cmd = s.cmd := rfl
@[simp] theorem windowBegun_loader : (windowBegun s).loader = s.loader := rfl
@[simp] theorem windowBegun_divider : (windowBegun s).divider = s.divider := rfl
@[simp] theorem windowBegun_windowData : (windowBegun s).windowData = s.windowData := rfl
@[simp] theorem windowBegun_pending : (windowBegun s).pending = s.pending := rfl
@[simp] theorem windowBegun_ram : (windowBegun s).mem.ram = s.mem.ram := rfl
@[simp] theorem windowBegun_segments : (windowBegun s).mem.segments = s.mem.segments := rfl
@[simp] theorem windowBegun_pointer : (windowBegun s).mem.pointer = s.mem.pointer := rfl
@[simp] theorem windowBegun_writeLatch : (windowBegun s).mem.writeLatch = s.mem.writeLatch := rfl
@[simp] theorem windowBegun_readLatch : (windowBegun s).mem.readLatch = s.mem.readLatch := rfl
@[simp] theorem windowBegun_dataReject : (windowBegun s).mem.dataReject = s.mem.dataReject := rfl
@[simp] theorem windowBegun_crcJob : (windowBegun s).mem.crcJob = s.mem.crcJob := rfl
@[simp] theorem windowBegun_arbiter : (windowBegun s).mem.arbiter = s.mem.arbiter.idled := rfl
@[simp] theorem windowBegun_segment (h : Handle) : (windowBegun s).segment h = s.segment h := rfl

end

end Sys2Proof.Machine
end

