-- ==== Sys2Proof/Laws/Fetch.lean ====
section
/-! SUPPORT. What the shared fetch operations can do, said once: the taking of a moment of fetch idle, an acceptance, the
end of a request, a hit and a record handed over. -/

namespace Sys2Proof.Machine

/-! ### Waiting movements -/

theorem movementWaits_congr {s t : State} (h : t.gen = s.gen) : movementWaits t = movementWaits s := by
  simp only [movementWaits, h]

theorem movementWaits_now {s : State} {c : PendingCommit} (h : s.gen.state = .commitPending c) (hm : c.mode = .now) :
    movementWaits s = true := by
  simp [movementWaits, h, hm]

theorem movementWaits_revert {s : State} {o : RevertOrigin} (h : s.gen.state = .revertWaiting o) :
    movementWaits s = true := by
  simp [movementWaits, h]

theorem movementWaits_switchedState (s : State) (c : PendingCommit) (n : Generation) :
    movementWaits (switchedState s c n) = false := by
  unfold movementWaits switchedState
  by_cases h : c.probation = 0
  · simp only [if_pos h]
  · simp only [if_neg h]

@[simp] theorem switchedState_pins (s : State) (c : PendingCommit) (n : Generation) : (switchedState s c n).pins = s.pins :=
  by simp only [switchedState]

@[simp] theorem switchedState_fetch (s : State) (c : PendingCommit) (n : Generation) :
    (switchedState s c n).fetch = s.fetch := by simp only [switchedState]

/-- After a switch no commit is pending. -/
theorem switchedState_notPending (s : State) (c : PendingCommit) (n : Generation) (d : PendingCommit) :
    (switchedState s c n).gen.state ≠ .commitPending d := by
  unfold switchedState
  by_cases h : c.probation = 0
  · rw [if_pos h]; exact GenState.noConfusion
  · rw [if_neg h]; exact GenState.noConfusion

@[simp] theorem revertedState_pins (s : State) (p : NumberedTable) (o : RevertOrigin) : (revertedState s p o).pins = s.pins := by
  cases o <;> rfl

@[simp] theorem revertedState_fetch (s : State) (p : NumberedTable) (o : RevertOrigin) :
    (revertedState s p o).fetch = s.fetch := by cases o <;> rfl

theorem revertedState_steady (s : State) (p : NumberedTable) (o : RevertOrigin) : (revertedState s p o).gen.state = .steady := by
  cases o <;> rfl

theorem movementWaits_revertedState (s : State) (p : NumberedTable) (o : RevertOrigin) :
    movementWaits (revertedState s p o) = false := by
  cases o <;> simp [movementWaits, revertedState]

theorem takeMovement_now {s : State} {c : PendingCommit} (h : s.gen.state = .commitPending c) (hm : c.mode = .now) :
    s.takeMovement = switchedState s c (switchNumber s.gen.counter s.tables.live.generation) := by
  rw [← State.takeSwitch_eq]; simp [State.takeMovement, h, hm]

theorem takeMovement_revert {s : State} {o : RevertOrigin} {p : NumberedTable} (h : s.gen.state = .revertWaiting o)
    (hp : s.tables.prior = some p) : s.takeMovement = revertedState s p o := by
  rw [← State.takeRevert_eq _ _ p hp]; simp [State.takeMovement, h]

/-! ### A moment of fetch idle (R21, R24, R90, R102) -/

theorem acceptable_none_of_standing {s : State} (h : s.fetch.standing = none) : acceptable s = none := by
  simp [acceptable, h]

theorem acceptable_none_of_trst {s : State} (h : s.pins.trst = true) : acceptable s = none := by
  simp [acceptable, h]

theorem acceptable_some {s : State} {p : Presentation} (h1 : s.pins.xrst = false) (h2 : s.pins.trst = false)
    (h3 : s.fetch.request = none) (h4 : s.fetch.standing = some p) : acceptable s = some p := by
  simp [acceptable, h1, h2, h3, h4]

theorem settle_busy {s : State} (h : s.fetch.request.isSome = true) : s.settle = s := by
  simp [State.settle, h]

theorem settle_quiet {s : State} (h : movementWaits s = false) : s.settle = s := by
  simp [State.settle, h]

theorem settle_contends {s : State} (ha : (acceptable s).isSome = true) : s.settle = s := by
  simp [State.settle, ha]

theorem settle_moves {s : State} (hr : s.fetch.request = none) (h : movementWaits s = true) (ha : acceptable s = none) :
    s.settle = s.takeMovement := by
  simp [State.settle, hr, h, ha]

/-- A movement that waits at fetch idle is taken alone. -/
theorem moveFirst_moves {s : State} (hr : s.fetch.request = none) (h : movementWaits s = true) :
    s.moveFirst = s.takeMovement := by
  simp [State.moveFirst, hr, h]

theorem switchMet_iff {s : State} {p : Presentation} : switchMet s p = true ↔ ¬ NoSwitchAt s p := by
  unfold switchMet NoSwitchAt
  cases hg : s.gen.state with
  | commitPending c => cases hm : c.mode <;> simp [GenState.pendingCommit, hm]
  | _ => simp [GenState.pendingCommit]

theorem switchMet_none {s t : State} {p : Presentation} (h : NoSwitchAt s p) (hg : t.gen = s.gen) : switchMet t p = false := by
  have ht : NoSwitchAt t p := by unfold NoSwitchAt; rw [hg]; exact h
  cases hq : switchMet t p with
  | false => rfl
  | true => exact absurd ht (switchMet_iff.1 hq)

theorem switchDue_eq {s : State} {p : Presentation} (h : acceptable s = some p) : switchDue s = switchMet s p := by
  simp only [switchDue, h]

theorem switchDue_none {s : State} (h : acceptable s = none) : switchDue s = false := by
  simp only [switchDue, h]

/-- A NOW commit is switched within no acceptance (R90, R91). -/
theorem noSwitchAt_now {s : State} {p : Presentation} {c : PendingCommit} (h : s.gen.state = .commitPending c)
    (hm : c.mode = .now) : NoSwitchAt s p := by
  intro d hd a ha
  rw [h] at hd; cases hd
  rw [hm] at ha; cases ha

/-- With no commit pending no switch is taken at an acceptance. -/
theorem noSwitchAt_unpending {s : State} {p : Presentation} (h : ∀ c, s.gen.state ≠ .commitPending c) : NoSwitchAt s p :=
  fun c hc => absurd hc (h c)

/-- No presentation is accepted beside a movement that waits. -/
theorem acceptOpen_waits {s : State} (h : movementWaits s = true) : s.acceptOpen = s := by
  simp [State.acceptOpen, h]

theorem acceptOpen_closed {s : State} (h : acceptable s = none) : s.acceptOpen = s := by
  simp [State.acceptOpen, State.acceptStanding, h]

theorem acceptOpen_accepts {s : State} {p : Presentation} (hm : movementWaits s = false) (ha : acceptable s = some p) :
    s.acceptOpen = s.accept p := by
  simp [State.acceptOpen, hm, State.acceptStanding, ha]

/-! ### Acceptance (R21 to R23, R91) -/

theorem switchAtAccept_none {s t : State} {p : Presentation} (h : NoSwitchAt s p) (hg : t.gen = s.gen) :
    t.switchAtAccept p = t := by
  unfold State.switchAtAccept
  rw [hg]
  cases h1 : s.gen.state with
  | commitPending c =>
    cases h2 : c.mode with
    | atAddress a => simp [h2, h c h1 a h2]
    | _ => simp [h2]
  | _ => rfl

/-- What an acceptance does that takes no switch. -/
theorem accept_begun {s : State} {p : Presentation} (h : NoSwitchAt s p) : s.accept p = s.begun p := by
  have hs := switchAtAccept_none h (rfl : s.gen = s.gen)
  have hm := switchMet_none h (rfl : s.gen = s.gen)
  have ha : (Presentation.request p s.tables.live.generation).address = alignAddress p.address p.length := by
    simp [Presentation.request, Request.address]
  cases hd : p.dir with
  | read => simp only [State.accept, State.begun, hs, hm, hd]; rfl
  | write => simp only [State.accept, State.begun, hs, hd]; rw [ha]; rfl

/-- R91: what an acceptance does that meets the switch address. -/
theorem accept_switches {s : State} {p : Presentation} {c : PendingCommit} {a : FetchAddr}
    (h : s.gen.state = .commitPending c) (hm : c.mode = .atAddress a) (hp : p.meets a = true) :
    s.accept p = (switchedState s c (switchNumber s.gen.counter s.tables.live.generation)).switchBegun p := by
  have hd : p.dir = .read := by simp [Presentation.meets] at hp; exact hp.1.1
  have hq : switchMet s p = true := by simp [switchMet, GenState.pendingCommit, h, hm, hp]
  have hs : s.switchAtAccept p = switchedState s c (switchNumber s.gen.counter s.tables.live.generation) := by
    rw [← State.takeSwitch_eq]; simp [State.switchAtAccept, h, hm, hp]
  simp only [State.accept, hs, hd, hq, if_true, State.switchBegun]; rfl

/-- A word is left ready at once only in a read request in progress. -/
theorem wordReady_none {s : State} (h : s.fetch.request = none) : wordReady s = false := by
  simp only [wordReady, h]

theorem wordReady_iff {s : State} : wordReady s = false ↔ NoReadyWord s := by
  unfold wordReady NoReadyWord State.resolveWord
  cases s.fetch.request with
  | none => simp
  | some r => cases hd : r.dir <;> simp [hd]

/-- FETCH_ACCEPT is the acceptance of the presentation that stands. -/
theorem exec_fetchAccept {s : State} {p : Presentation} (h1 : s.pins.xrst = false) (h2 : s.pins.trst = false)
    (h3 : s.fetch.request = none) (h4 : s.fetch.standing = some p) : exec .fetchAccept s = .next (s.accept p) := by
  simp [exec, execFetchAccept, outOfReset, h1, State.acceptOrBegin, wordReady_none h3, State.acceptStanding,
    acceptable_some h1 h2 h3 h4]

/-- FETCH_ACCEPT begins a request whose first word is ready at once. -/
theorem exec_fetchAccept_ready {s : State} (h1 : s.pins.xrst = false) (h : wordReady s = true) :
    exec .fetchAccept s = .next s.served := by
  simp [exec, execFetchAccept, outOfReset, h1, State.acceptOrBegin, h, State.served]

/-- R91: where the presentation that stands meets the switch address, SWITCH is the acceptance. -/
theorem exec_switch_due {s : State} {p : Presentation} {c : PendingCommit} {a : FetchAddr} (h1 : s.pins.xrst = false)
    (h2 : s.pins.trst = false) (h3 : s.fetch.request = none) (h4 : s.fetch.standing = some p)
    (h : s.gen.state = .commitPending c) (hm : c.mode = .atAddress a) (hp : p.meets a = true) :
    exec .switch s = .next (s.accept p) := by
  have ha := acceptable_some h1 h2 h3 h4
  have hq : switchMet s p = true := by simp [switchMet, GenState.pendingCommit, h, hm, hp]
  simp [exec, execSwitch, outOfReset, h1, h, switchDue_eq ha, hq, State.acceptStanding, ha]

/-- SWITCH at fetch idle with a NOW commit pending is the movement alone (R24, R90). -/
theorem exec_switch_now {s : State} {c : PendingCommit} (hx : s.pins.xrst = false) (hr : s.fetch.request = none)
    (hc : s.gen.state = .commitPending c) (hm : c.mode = .now) :
    exec .switch s = .next (switchedState s c (switchNumber s.gen.counter s.tables.live.generation)) := by
  have hd : switchDue s = false := by
    cases ha : acceptable s with
    | none => exact switchDue_none ha
    | some p => rw [switchDue_eq ha]; exact switchMet_none (noSwitchAt_now hc hm) rfl
  simp only [exec, execSwitch, outOfReset, hx, hc, hd, Bool.false_eq_true, if_false]
  rw [moveFirst_moves hr (movementWaits_now hc hm), takeMovement_now hc hm]

theorem exec_freqPresent_open {s : State} (p : Presentation) (h : PortOpen s) :
    exec (.freqPresent p.address p.length p.kind p.dir p.data) s = .next
      (({ s with pins := { s.pins with freq := true }, fetch := { s.fetch with standing := some p } }).accept p) := by
  obtain ⟨h1, h2, h3, h4, h5⟩ := h
  show Host.Outcome.next (if s.pins.freq then s else if s.pins.xrst then _ else _) = _
  rw [if_neg (by simp [h3]), if_neg (by simp [h1])]
  congr 1
  exact acceptOpen_accepts (by exact h5) (acceptable_some (by exact h1) (by exact h2) (by exact h4) rfl)

theorem address_acceptedRequest (s : State) (p : Presentation) :
    (acceptedRequest s p).address = alignAddress p.address p.length := by
  simp [Request.address, acceptedRequest]

theorem address_next {r : Request} (h : 2 ≤ r.left) (h2 : r.left ≤ fetchWords r.length) :
    ({ r with left := r.left - 1 } : Request).address = r.address + 1 := by
  simp only [Request.address]
  rw [show fetchWords r.length - (r.left - 1) = (fetchWords r.length - r.left) + 1 by omega, BitVec.ofNat_add,
    ← BitVec.add_assoc]
  rfl

/-! ### Hits and records -/

theorem countHit_eq {s : State} {i : Nat} (h : CountsInRange s.tables) :
    s.countHit i = { s with tables := hitsAt s.tables i 1 } := by
  have key : s.tables.live.entries.modify i Entry.hit
      = s.tables.live.entries.modify i fun e => { e with hits := min (e.hits + 1) 16777215 } := ?_
  · unfold State.countHit hitsAt
    rw [key]
  apply List.ext_getElem?
  intro j
  simp only [List.getElem?_modify]
  cases hj : s.tables.live.entries[j]? with
  | none => simp
  | some e =>
    have : e.hits ≤ 16777215 := h e (List.mem_of_getElem? hj)
    by_cases hij : i = j
    · simp only [hij, if_true, Option.map_eq_map, Option.map_some, Entry.hit]
      congr 2
      by_cases hm : e.hits < Config.hitsMax
      · rw [if_pos hm]; simp only [Config.hitsMax] at hm; omega
      · rw [if_neg hm]; simp only [Config.hitsMax] at hm; omega
    · simp [hij]

theorem handOver_append {s : State} {h : Handover} (hl : s.log.records.length < 16) :
    s.handOver h = { s with
      log := { records := s.log.records ++ [h.numbered s.log.nextSequence], nextSequence := s.log.nextSequence + 1 }
      irq := { s.irq with pending := s.irq.pending ||| 0b0000001 } } := by
  unfold State.handOver
  rw [if_pos (show s.log.records.length < Config.logRecords from hl)]; rfl

/-! ### Target reset -/

theorem endRequest_eq (s : State) :
    ({ s with pins := { s.pins with trst := true } }).endRequest = requestEnded s := by
  unfold State.endRequest requestEnded Arbiter.withdrawFetch
  simp only [State.setFetch, State.setArbiter]
  cases h : s.mem.arbiter.serving with
  | none => rfl
  | some a => cases a <;> rfl

theorem exec_trstAssert {s : State} (hx : s.pins.xrst = false) (ht : s.pins.trst = false) :
    exec .trstAssert s = .next ((requestEnded s).targetResetGen.settle) := by
  have h : s.targetReset = (requestEnded s).targetResetGen.settle := by
    unfold State.targetReset; rw [← endRequest_eq]
  simp only [exec, execTrstAssert, hx, ht, Bool.false_eq_true, if_false, h]

theorem segmentWord_eq {s : State} {h : Handle} {g : Run} {o : Nat} (hg : (s.segment h).run = some g) :
    s.segmentWord h o = wordAt s.mem.ram g o := by
  simp [State.segmentWord, ramWord, wordOf, wordAt, Segment.position, hg, Config.granuleWords, Nat.mul_comm]

/-! ### Serving -/

theorem next_eq {r : Request} (h : 1 ≤ r.left) :
    r.next = if r.left = 1 then none else some { r with left := r.left - 1 } := by
  unfold Request.next; split <;> split <;> first | rfl | omega

/-- One delivered word, whatever it resolves to. -/
theorem deliver_eq {s : State} {r : Request} (w : Word) (hl : 1 ≤ r.left) (hc : CountsInRange s.tables) :
    s.deliver r w =
      match s.resolveWord r with
      | .passthrough => { s with fetch := wordMarked s.fetch r (some w) }
      | .countOnly i => { s with fetch := wordMarked s.fetch r (some w), tables := hitsAt s.tables i 1 }
      | .replace _ _ i => { s with fetch := wordMarked s.fetch r (some w), tables := hitsAt s.tables i 1 }
      | .fill _ i => { s with fetch := wordMarked s.fetch r (some w), tables := hitsAt s.tables i 1 }
      | .trap _ i => { s.handOver
          { address := r.address, entryIndex := i, generation := r.latch, body := .trap r.kind } with
          fetch := wordMarked s.fetch r (some w), tables := hitsAt s.tables i 1 } := by
  have hb : ∀ t : State, t.beat r (some w) = { t with fetch := wordMarked t.fetch r (some w) } := by
    intro t; simp only [State.beat, State.setFetch, wordMarked, next_eq hl]
  unfold State.deliver
  rw [hb]
  cases s.resolveWord r with
  | passthrough => rfl
  | trap v i =>
    simp only [State.countResolution, Resolution.index?, State.logTrap]
    rw [countHit_eq hc]
    by_cases h : s.log.records.length < Config.logRecords
    · simp only [State.handOver, if_pos h]; rfl
    · simp only [State.handOver, if_neg h]; rfl
  | _ => simp only [State.countResolution, Resolution.index?, State.logTrap]; rw [countHit_eq hc]

/-- A request in progress has words left, and no more than `n`. -/
abbrev LeftWithin (s : State) (n : Nat) : Prop := ∀ r, s.fetch.request = some r → 1 ≤ r.left ∧ r.left ≤ n

theorem deliver_request (s : State) (r : Request) (w : Word) : (s.deliver r w).fetch.request = r.next := by
  simp [State.deliver, State.beat, State.setFetch]

/-- Serving needs no more fuel than words are left. -/
theorem serve_fuel (n m : Nat) (s : State) (h : LeftWithin s n) (hm : n ≤ m) : serve m s = serve n s := by
  induction n generalizing m s with
  | zero =>
    have : s.fetch.request = none := by
      cases hr : s.fetch.request with
      | none => rfl
      | some r => have := h r hr; omega
    cases m <;> simp [serve, this]
  | succ n ih =>
    obtain ⟨m, rfl⟩ : ∃ k, m = k + 1 := ⟨m - 1, by omega⟩
    rw [serve, serve]
    cases hr : s.fetch.request with
    | none => rfl
    | some r =>
      have hl := h r hr
      have step : ∀ w, serve m (s.deliver r w) = serve n (s.deliver r w) := by
        intro w
        refine ih m _ ?_ (by omega)
        intro q hq
        rw [deliver_request, next_eq hl.1] at hq
        split at hq
        · cases hq
        · cases hq; exact ⟨by simp only; omega, by simp only; omega⟩
      cases s.resolveWord r <;> simp only [step]

theorem fetchWords_le (l : FetchLength) : fetchWords l ≤ 8 := by cases l <;> decide

/-- A ready word is delivered and the next one is served. -/
theorem served_deliver {s : State} {r : Request} {w : Word} (hr : s.fetch.request = some r) (hl : 1 ≤ r.left)
    (hw : r.left ≤ fetchWords r.length)
    (hx : (∃ i, s.resolveWord r = .fill w i) ∨ ∃ i, s.resolveWord r = .trap w i) :
    s.served = (s.deliver r w).served := by
  have hf := fetchWords_le r.length
  have : serve 8 (s.deliver r w) = serve 7 (s.deliver r w) := by
    refine serve_fuel 7 8 _ ?_ (by omega)
    intro q hq
    rw [deliver_request, next_eq hl] at hq
    split at hq
    · cases hq
    · cases hq; exact ⟨by simp only; omega, by simp only; omega⟩
  unfold State.served
  rw [this, serve]
  rcases hx with ⟨i, hx⟩ | ⟨i, hx⟩ <;> simp only [hr, hx]

/-- What serving from the current word on does, word by word. -/
theorem served_eq {s : State} {r : Request} (hr : s.fetch.request = some r) (hl : 1 ≤ r.left)
    (hw : r.left ≤ fetchWords r.length) (hc : CountsInRange s.tables) :
    match resolve s.tables.live.entries r.address r.kind with
    | .passthrough => s.served = { s with fetch := { s.fetch with romAddress := r.address, romCycle := .read } }
    | .countOnly _ => s.served = { s with fetch := { s.fetch with romAddress := r.address, romCycle := .read } }
    | .replace h o _ => s.served = { s with
        mem := { s.mem with arbiter := s.mem.arbiter.fetchAsked { handle := h, offset := o } } }
    | .fill v i => s.served = State.served { s with
        fetch := wordMarked s.fetch r (some v), tables := hitsAt s.tables i 1 }
    | .trap v i => s.served = State.served { s.handOver
          { address := r.address, entryIndex := i, generation := r.latch, body := .trap r.kind } with
        fetch := wordMarked s.fetch r (some v), tables := hitsAt s.tables i 1 } := by
  have e : s.resolveWord r = resolve s.tables.live.entries r.address r.kind := rfl
  rw [← e]
  have go : ∀ x, s.resolveWord r = x → s.served = match x with
      | .passthrough => s.startRom r.address .read
      | .countOnly _ => s.startRom r.address .read
      | .replace h o _ => s.setArbiter (s.mem.arbiter.claimFetch { handle := h, offset := o })
      | .fill v _ => (s.deliver r v).served
      | .trap v _ => (s.deliver r v).served := by
    intro x hx
    cases x with
    | fill v i => exact served_deliver hr hl hw (Or.inl ⟨i, hx⟩)
    | trap v i => exact served_deliver hr hl hw (Or.inr ⟨i, hx⟩)
    | _ => unfold State.served; rw [serve]; simp only [hr, hx, State.startWord]
  cases hx : s.resolveWord r with
  | passthrough => exact go _ hx
  | countOnly i => exact go _ hx
  | replace h o i => simp only; rw [go _ hx]; simp only [claimFetch_eq]; rfl
  | fill v i => simp only; rw [go _ hx]; simp only [deliver_eq v hl hc, hx]
  | trap v i => simp only; rw [go _ hx]; simp only [deliver_eq v hl hc, hx]

/-- What the start of a word's access does, by its resolution (R26, R28, R29). -/
theorem startWord_eq {s : State} {r : Request} (hr : s.fetch.request = some r) :
    match resolve s.tables.live.entries r.address r.kind with
    | .passthrough => s.startWord = { s with fetch := { s.fetch with romAddress := r.address, romCycle := .read } }
    | .countOnly _ => s.startWord = { s with fetch := { s.fetch with romAddress := r.address, romCycle := .read } }
    | .replace h o _ => s.startWord = { s with
        mem := { s.mem with arbiter := s.mem.arbiter.fetchAsked { handle := h, offset := o } } }
    | .fill _ _ => s.startWord = s
    | .trap _ _ => s.startWord = s := by
  have e : s.resolveWord r = resolve s.tables.live.entries r.address r.kind := rfl
  rw [← e]
  cases hx : s.resolveWord r with
  | replace h o i => simp only [State.startWord, hr, hx]; rw [claimFetch_eq]; rfl
  | _ => simp only [State.startWord, State.startRom, State.setFetch, hr, hx]

@[simp] theorem serve_standing (n : Nat) (s : State) : (serve n s).fetch.standing = s.fetch.standing := by
  induction n generalizing s with
  | zero => rfl
  | succ n ih =>
    rw [serve]
    cases s.fetch.request with
    | none => rfl
    | some r =>
      have d : ∀ w, (s.deliver r w).fetch.standing = s.fetch.standing := fun w => by
        simp [State.deliver, State.beat, State.setFetch]
      cases hx : s.resolveWord r <;> simp only [hx, ih, d, State.startWord_standing]

/-- What the three events that end an access do. What waits for the end of the request stays waiting. -/
theorem exec_endsWith {s t : State} {c : Instr} (hx : s.pins.xrst = false) (hc : CountsInRange s.tables)
    (h : EndsWith s c t) : exec c s = .next t := by
  obtain ⟨r, hr, hl, ⟨rd, rfl, hcy, h⟩ | ⟨w, fd, rfl, hcy, h1, rfl⟩ | ⟨k, g, i, rfl, hs, hg, hx', rfl⟩⟩ := h
  · have e : exec (.romReadDone rd) s = .next (s.romReadEnds r rd) := by
      simp [exec, execRomReadDone, outOfReset, hx, hcy, hr]
    rw [e, State.romReadEnds, deliver_eq rd hl (by exact hc)]
    rcases h with ⟨hq, rfl⟩ | ⟨i, hq, rfl⟩
    · rw [show s.endRom.resolveWord r = _ from hq]; rfl
    · rw [show s.endRom.resolveWord r = _ from hq]; rfl
  · have e : exec (.romWriteDone fd) s = .next (s.romWriteEnds r w fd) := by
      simp [exec, execRomWriteDone, outOfReset, hx, hcy, hr]
    have hn : r.next = none := by simp [Request.next, h1]
    have hsh : (s.endRom.logShadow r w).beat r none
        = { s.logShadow r w with fetch := { wordMarked s.fetch r none with romCycle := .none } } := by
      simp only [State.logShadow, show s.endRom.tables = s.tables from rfl]
      cases shadowIndex s.tables.live.entries r.address with
      | none => simp [State.beat, State.setFetch, State.endRom, wordMarked, hn, h1]
      | some i =>
        simp only [State.handOver, show s.endRom.log = s.log from rfl]
        split <;> simp [State.beat, State.setFetch, State.endRom, wordMarked, hn, h1, State.raise]
    rw [e, State.romWriteEnds, hsh, State.nextWrite]
    simp [wordMarked, h1]
  · have e : exec .fetchRamReadDone s = .next ((windowBegun s).fetchReadEnds k) := by
      simp [exec, execFetchRamReadDone, outOfReset, hx, hs, arbiter_dataEnded_eq, dataEnded_begun]
    have hf : (windowBegun s).freePort
        = { s with mem := { s.mem with arbiter := s.mem.arbiter.idled.passed } } := by rw [freePort_eq]; rfl
    rw [e, State.fetchReadEnds, hf, segmentWord_eq (by exact hg)]
    simp only [hr]
    rw [deliver_eq _ hl (by exact hc)]
    rw [show State.resolveWord { s with mem := { s.mem with arbiter := s.mem.arbiter.idled.passed } } r = _ from hx']; rfl

end Sys2Proof.Machine
end

