-- ==== Sys2Proof/Laws/Memory.lean ====
section
/-! SUPPORT. Patch RAM: a write reads back, leaves every other byte, and keeps the canonical form. -/

namespace Sys2Proof.Machine.Memory

theorem read_write (m : List Host.Cell) (a : Nat) (b : Byte) (h : wf m = true) (x : Nat) :
    read (write m a b) x = if x = a then b else read m x := by
  induction m with
  | nil =>
    unfold write
    by_cases hb : b = background <;> by_cases hx : x = a
    · simp [hb, hx, read]
    · simp [hb, hx, read]
    · simp [hb, hx, read]
    · simp [hb, hx, read, Ne.symm hx]
  | cons c rest ih =>
    obtain ⟨k, v⟩ := c
    have hw : above k rest = true ∧ wf rest = true := by
      simp only [wf, Bool.and_eq_true] at h; exact ⟨h.1.1, h.2⟩
    have low : ∀ (l : List Host.Cell) (y : Nat), above k l = true → y ≤ k → read l y = background := by
      intro l
      induction l with
      | nil => intros; rfl
      | cons d t iht =>
        intro y ha hy
        simp only [above, List.all_cons, Bool.and_eq_true, decide_eq_true_eq] at ha
        have : d.1 ≠ y := by omega
        simp only [read, if_neg this]
        exact iht y ha.2 hy
    have hr := ih hw.2
    unfold write
    by_cases h1 : a < k
    · by_cases hb : b = background
      · simp only [h1, hb, if_true]
        by_cases hx : x = a
        · have : k ≠ x := by omega
          simp [read, hx, show k ≠ a by omega, low rest a hw.1 (by omega)]
        · simp [hx]
      · by_cases hx : x = a
        · simp [h1, hb, hx, read]
        · simp [h1, hb, hx, read, Ne.symm hx]
    · by_cases h2 : a = k
      · subst h2
        by_cases hb : b = background
        · by_cases hx : x = a
          · simp [hb, hx, low rest a hw.1 (le_refl _)]
          · simp [hb, hx, read, Ne.symm hx]
        · by_cases hx : x = a
          · simp [hb, hx, read]
          · simp [hb, hx, read, Ne.symm hx]
      · simp only [h1, h2, if_false, read, hr]
        by_cases hk : k = x
        · subst hk; simp [Ne.symm h2]
        · simp [hk]

theorem above_write (k : Nat) (m : List Host.Cell) (a : Nat) (b : Byte) (h : above k m = true) (ha : k < a) :
    above k (write m a b) = true := by
  induction m with
  | nil => unfold write; by_cases hb : b = background <;> simp [hb, above, ha]
  | cons c rest ih =>
    obtain ⟨j, v⟩ := c
    have hc : k < j ∧ above k rest = true := by simpa [above] using h
    have cons : ∀ (y : Nat) (w : Byte) (l : List Host.Cell), k < y → above k l = true →
        above k ((y, w) :: l) = true := by
      intro y w l hy hl
      simp only [above, List.all_cons, Bool.and_eq_true, decide_eq_true_eq]
      exact ⟨hy, hl⟩
    unfold write
    split
    · split
      · exact h
      · exact cons _ _ _ ha h
    · split
      · split
        · exact hc.2
        · exact cons _ _ _ ha hc.2
      · exact cons _ _ _ hc.1 (ih hc.2)

/-- A write keeps the canonical form. -/
theorem wf_write (m : List Host.Cell) (a : Nat) (b : Byte) (h : wf m = true) : wf (write m a b) = true := by
  induction m with
  | nil => unfold write; by_cases hb : b = background <;> simp [hb, wf, above]
  | cons c rest ih =>
    obtain ⟨k, v⟩ := c
    have h' := h
    simp only [wf, Bool.and_eq_true] at h
    unfold write
    by_cases h1 : a < k
    · by_cases hb : b = background
      · simpa [h1, hb] using h'
      · have : above a ((k, v) :: rest) = true := by
          simp only [above, List.all_cons, Bool.and_eq_true, decide_eq_true_eq, List.all_eq_true] at h ⊢
          exact ⟨h1, fun x hx => lt_trans h1 (h.1.1 x hx)⟩
        simp only [h1, hb, if_true, if_false]
        simp only [wf, this, Bool.and_eq_true, bne_iff_ne, ne_eq, hb, not_false_eq_true, true_and]
        simpa using h
    · by_cases h2 : a = k
      · subst h2
        by_cases hb : b = background
        · simp [hb, h.2]
        · simp [hb, wf, h.1.1, h.2]
      · simp only [h1, h2, if_false, wf, Bool.and_eq_true]
        exact ⟨⟨above_write k rest a b h.1.1 (by omega), h.1.2⟩, ih h.2⟩

/-- Storing a word keeps the canonical form. -/
theorem wf_ramStore (m : List Host.Cell) (w : Nat) (v : Word) (h : wf m = true) : wf (ramStore m w v) = true :=
  wf_write _ _ _ (wf_write _ _ _ h)

/-- The bytes of a stored word, and every other byte as before. -/
theorem read_ramStore (m : List Host.Cell) (w : Nat) (v : Word) (h : wf m = true) (x : Nat) :
    read (ramStore m w v) x =
      if x = 2 * w + 1 then highByte v else if x = 2 * w then lowByte v else read m x := by
  unfold ramStore
  rw [read_write _ _ _ (wf_write _ _ _ h), read_write _ _ _ h]

end Sys2Proof.Machine.Memory
end

