-- ==== Sys2Proof/Laws/Answers.lean ====
section
/-! SUPPORT. What a write to CMD does, said once (R143, R145), with the handle check (R45) and the shared memory operations in
the vocabulary of Safety.lean. -/

namespace Sys2Proof.Machine

theorem loaderRunning_false {s : State} (h : s.loader.state ≠ .running) : loaderRunning s = false := by
  simp [loaderRunning, h]

theorem loaderRunning_true {s : State} (h : s.loader.state = .running) : loaderRunning s = true := by
  simp [loaderRunning, h]

theorem outOfReset_eq {s : State} (h : s.pins.xrst = false) (f : State → State) : outOfReset s f = .next (f s) := by
  simp [outOfReset, h]

theorem windowEvent_eq {s : State} (h : s.pins.xrst = false) (f : State → State) :
    windowEvent s f = .next (f (windowBegun s)) := by
  rw [windowEvent, outOfReset_eq h, dataEnded_begun]

/-- A command written while its unit is ready reaches its owner. -/
theorem commandEvent_ready {s : State} (h : Ready s) (code : Byte) (w : Bool) (owner : State → State) :
    commandEvent code w owner s = .next (owner ((windowBegun s).setCommand code)) := by
  rw [commandEvent, windowEvent_eq h.1, takeCommand, windowBegun_cmd, h.2.1,
    show loaderRunning (windowBegun s) = false from loaderRunning_false h.2.2]; rfl

/-- One of the three commands that are answered while the loader runs. -/
theorem commandEvent_unheld {s : State} (h : Unheld s) (code : Byte) (owner : State → State) :
    commandEvent code true owner s = .next (owner ((windowBegun s).setCommand code)) := by
  rw [commandEvent, windowEvent_eq h.1, takeCommand, windowBegun_cmd, h.2]
  simp

/-- The other commands are answered LOADER_ACTIVE while the loader runs. -/
theorem commandEvent_loading {s : State} (h : Unheld s) (hl : s.loader.state = .running) (code : Byte)
    (owner : State → State) : commandEvent code false owner s = .next (s.answered code .loaderActive []) := by
  rw [commandEvent, windowEvent_eq h.1, takeCommand, windowBegun_cmd, h.2,
    show loaderRunning (windowBegun s) = true from loaderRunning_true hl]; rfl

/-- A command written under BUSY is refused. -/
theorem commandEvent_busy {s : State} (hx : s.pins.xrst = false) (h : s.cmd.busy.isSome = true) (code : Byte) (w : Bool)
    (owner : State → State) : commandEvent code w owner s = .next (windowBegun s).refuse := by
  rw [commandEvent, windowEvent_eq hx, takeCommand, if_pos (by rw [windowBegun_cmd]; exact h)]

theorem answer_setCommand (s : State) (code : Byte) (r : ResultCode) (bs : List Byte) :
    ((windowBegun s).setCommand code).answer r bs = s.answered code r bs := rfl

theorem handleOf_number (h : Handle) : handleOf (h.val + 1) = some h := by
  simp [handleOf, h.isLt]

theorem handleOf_none {n : Nat} (h : n = 0 ∨ 48 < n) : handleOf n = none := by
  unfold handleOf; rw [dif_neg]; omega

theorem isFree_eq_true_iff (g : Segment) : g.isFree = true ↔ g = .free := by
  cases g <;> simp [Segment.isFree, Segment.run]

theorem isFree_of_run {g : Segment} {r : Run} (h : g.run = some r) : g.isFree = false := by
  simp [Segment.isFree, h]

theorem capacity_of_run {g : Segment} {r : Run} (h : g.run = some r) : g.capacity = 32 * r.count := by
  simp [Segment.capacity, h, Config.granuleWords, Nat.mul_comm]

theorem withHandle_taken {s : State} {h : Handle} {n : Nat} (hn : n = h.val + 1) (hf : (s.segment h).isFree = false)
    (go : Handle → State) : withHandle n s go = go h := by
  rw [withHandle, hn, handleOf_number]
  simp [hf]

theorem withHandle_badParam {s : State} {n : Nat} (h : n = 0 ∨ 48 < n) (go : Handle → State) :
    withHandle n s go = s.answer .badParam [] := by
  rw [withHandle, handleOf_none h]

theorem withHandle_notFound {s : State} {h : Handle} {n : Nat} (hn : n = h.val + 1) (hf : s.segment h = .free)
    (go : Handle → State) : withHandle n s go = s.answer .notFound [] := by
  rw [withHandle, hn, handleOf_number]
  simp [hf, Segment.isFree, Segment.run]

theorem unsetPointerOn_eq (s : State) (h : Handle) : s.unsetPointerOn h = { s with mem := s.mem.pointerOff h } := by
  unfold State.unsetPointerOn PatchMemory.pointerOff
  cases hp : s.mem.pointer with
  | none => simp
  | some p =>
    by_cases hh : p.handle = h
    · simp [hh, State.unsetPointer]
    · simp [hh]

theorem releaseSegment_eq (s : State) (h : Handle) :
    s.releaseSegment h = { s with mem := (s.mem.withSegment h .free).pointerOff h } := by
  rw [State.releaseSegment, unsetPointerOn_eq]; rfl

/-- A stored segment word: the bytes of the word, and every other byte as before. -/
theorem wordStored_ramStore (m : List Host.Cell) (r : Run) (o : Nat) (w : Word) (h : Memory.wf m = true) :
    WordStored m (ramStore m (32 * r.first + o) w) r o w := by
  refine ⟨?_, fun a h0 h1 => ?_⟩
  · unfold wordAt
    rw [Memory.read_ramStore _ _ _ h, Memory.read_ramStore _ _ _ h]
    simp only [if_true, show ¬ (2 * (32 * r.first + o) = 2 * (32 * r.first + o) + 1) by omega, if_false]
    ext i hi
    simp only [highByte, lowByte, BitVec.getElem_append, BitVec.getElem_setWidth, BitVec.getLsbD_ushiftRight]
    split
    · simp [BitVec.getLsbD_eq_getElem hi]
    · rw [← BitVec.getLsbD_eq_getElem]; congr 1; omega
  · rw [Memory.read_ramStore _ _ _ h, if_neg h1, if_neg h0]

theorem wordOf_parts (v l : Byte) : highByte (wordOf v l) = v ∧ lowByte (wordOf v l) = l := by
  unfold highByte lowByte wordOf
  constructor
  · ext i hi
    rw [BitVec.getElem_setWidth, BitVec.getLsbD_ushiftRight, BitVec.getLsbD_append]
    simp [show ¬ (8 + i < 8) by omega, BitVec.getLsbD_eq_getElem hi]
  · ext i hi
    rw [BitVec.getElem_setWidth, BitVec.getLsbD_append]
    simp [hi]

end Sys2Proof.Machine
end

