-- ==== Sys2Proof/WellFormed.lean ====
section
/-! DEFINITION. Which commands a sender can make: an operand that belongs to another row of the table is
refused here. A command that fails the check leaves the machine as it is (notes/assumptions/3.md), but for
an UNKNOWN_RECORD_TYPE at an exhausted body, where no type byte is read (notes/assumptions/24.md). -/

namespace Sys2Proof

/-- The operands are those the row's event can bring. -/
def Instr.wellFormed : Instr → Bool
  | .badCommand code => !Machine.namesCommand code
  | .windowWriteIgnored offset _ bothStrobes => bothStrobes || Machine.ignoresWrite offset
  | .unknownRecordType typeByte => !Machine.namesRecord typeByte
  | .powerOn _ _ _ => true
  | .xrstAssert => true
  | .xrstRelease _ => true
  | .trstAssert => true
  | .trstRelease => true
  | .resetExcess => true
  | .freqPresent _ _ _ _ _ => true
  | .fetchAccept => true
  | .romReadDone _ => true
  | .romWriteDone _ => true
  | .fetchRamReadDone => true
  | .crcWordRead => true
  | .sealComplete => true
  | .msTick => true
  | .probationExpiry => true
  | .switch => true
  | .revertTaken => true
  | .segAlloc => true
  | .segSelect => true
  | .segSeal => true
  | .segUnseal => true
  | .segFree => true
  | .segInfo => true
  | .stgInsert => true
  | .stgRemove => true
  | .stgClear => true
  | .stgCopyLive => true
  | .tblRead => true
  | .cntClear => true
  | .commit => true
  | .commitAbort => true
  | .revert => true
  | .confirm => true
  | .genStatus => true
  | .logPop => true
  | .logClear => true
  | .ldrStatus => true
  | .parameterWrite _ _ => true
  | .statusWrite _ => true
  | .intPendWrite _ => true
  | .intEnWrite _ => true
  | .dataLoWrite _ => true
  | .dataHiWrite _ => true
  | .dataLoRead => true
  | .dataHiRead => true
  | .zeroFillEnd => true
  | .headerReceived _ => true
  | .segmentRecord _ _ => true
  | .segmentWord _ => true
  | .entryRecord _ _ _ _ _ _ _ => true
  | .endRecord => true
  | .loaderRunEnd => true
  | .freqRelease => true

end Sys2Proof
end

