-- ==== Sys2Proof/Laws/Lines.lean ====
section
/-! SUPPORT. What the part's lines make is a command a sender can make: a byte of the window finds the row of its own
offset, and a code the row of its own command. -/

namespace Sys2Proof.Machine

theorem cmdWrite_wellFormed : ∀ v : Byte, (cmdWrite v).wellFormed = true := by decide +kernel

theorem windowWrite_wellFormed (o : BitVec 5) (v : Byte) : (windowWrite o v).wellFormed = true := by
  obtain ⟨⟨n, hn⟩⟩ := o
  interval_cases n
  · exact cmdWrite_wellFormed v
  all_goals rfl

theorem windowAccess_wellFormed {wcs wrd wwr : Bool} {o : BitVec 5} {v : Byte} {c : Instr}
    (h : windowAccess wcs wrd wwr o v = some c) : c.wellFormed = true := by
  cases wcs <;> cases wrd <;> cases wwr <;> simp only [windowAccess, Option.some.injEq, reduceCtorEq] at h
  · exact h ▸ windowWrite_wellFormed o v
  · unfold windowRead at h; split at h <;> cases h <;> rfl
  · exact h ▸ rfl

theorem fetchWords_fetchLengthOf : ∀ flen : BitVec 2, fetchWords (fetchLengthOf flen) = 2 ^ flen.toNat := by decide

end Sys2Proof.Machine
end

