-- ==== Sys2Proof/Laws/Loading.lean ====
section
/-! SUPPORT. What the loader's shared operations, an allocation, an insert's checks and a commit's parameters can do, said once
in the vocabulary of Safety.lean. -/

namespace Sys2Proof.Machine

/-! ### Fetch idle -/

theorem acceptable_none {s t : State} (h : NoAcceptance s) (hf : t.fetch = s.fetch) (hp : t.pins = s.pins) :
    acceptable t = none := by
  unfold acceptable
  rw [hf, hp]
  rcases h with h | h | h <;> simp [h]

/-! ### Parameters (R75, R88, R167) -/

theorem commitRequest_some {s : State} {c : PendingCommit} (h : CommitAsked s c) : commitRequest s = some c := by
  obtain ⟨h1, h2, h3⟩ := h
  have ht : commitTolerance s = some c.tolerance := by
    unfold commitTolerance
    rw [dif_pos (by rw [h2]; exact c.tolerance.isLt)]
    exact congrArg _ (Fin.ext h2)
  have hm : commitMode s = some c.mode := by
    unfold commitMode
    cases hc : c.mode with
    | now => rw [hc] at h3; simp [h3]
    | atAddress a =>
      rw [hc] at h3
      obtain ⟨ha, hb⟩ := h3
      rw [ha, hb]
      simp [Config.fetchTop]
      omega
    | atTargetReset => rw [hc] at h3; simp [h3]
  unfold commitRequest
  rw [ht, hm]
  cases c
  simp_all [wordOf]

theorem appliesOf_number (a : Applies) (b : Byte) (h : b.toNat = a.number) : appliesOf b = some a := by
  have : b = BitVec.ofNat 8 a.number := by
    apply BitVec.eq_of_toNat_eq
    rw [h]
    cases a <;> rfl
  rw [this]
  cases a <;> rfl

theorem eq_ofNat_of_toNat {b : Byte} {n : Nat} (h : b.toNat = n) : b = BitVec.ofNat 8 n := by
  subst h
  exact (BitVec.ofNat_toNat 8 b).symm ▸ (by simp)

/-- The entry a request asks for, from its body and its ranges. -/
theorem entry_some {r : InsertRequest} {e : Entry} (hb : r.body = some e.body) (ha : r.applies.toNat = e.applies.number)
    (h1 : r.base = e.base.toNat) (h2 : r.length = e.length) (h3 : 1 ≤ e.length) (h4 : e.length ≤ 4096)
    (h5 : e.base.toNat + e.length ≤ 0x80000) (h6 : e.hits = 0) : r.entry = some e := by
  unfold InsertRequest.entry
  rw [hb, appliesOf_number _ _ ha, h1, h2]
  dsimp only
  rw [if_pos ⟨e.base.isLt, h3, h4, h5⟩]
  cases e
  simp_all

theorem insertRequest_entry {s : State} {e : Entry} (h : EntryAsked s e) : (insertRequest s).entry = some e := by
  obtain ⟨h1, h2, h3, h4, h5, h6, h7, h8⟩ := h
  refine entry_some ?_ h7 h1 h2 h3 h4 h5 h6
  unfold InsertRequest.body
  have hk : (insertRequest s).kind = param s 5 := rfl
  rw [hk]
  cases hb : e.body with
  | replace k o =>
    rw [hb] at h8
    obtain ⟨a, b, c, d⟩ := h8
    rw [eq_ofNat_of_toNat (show (param s 5).toNat = 1 from a), if_pos (by rfl),
      show (insertRequest s).segment = k.val + 1 from b, handleOf_number, show (insertRequest s).offset = o from c]
    exact if_neg (show ¬ o > 16383 by omega)
  | fill v => rw [hb] at h8; rw [eq_ofNat_of_toNat (show (param s 5).toNat = 2 from h8.1), h8.2]; rfl
  | trap v => rw [hb] at h8; rw [eq_ofNat_of_toNat (show (param s 5).toNat = 3 from h8.1), h8.2]; rfl
  | count => rw [hb] at h8; rw [eq_ofNat_of_toNat (show (param s 5).toNat = 4 from h8)]; rfl

/-! ### Inserts (R74 to R78) -/

theorem segmentRefusal_none {s : State} {e : Entry} (h : SegmentReady s e) : segmentRefusal s e = none := by
  unfold segmentRefusal
  cases hb : e.body with
  | replace k o =>
    obtain ⟨r, d, h1, h2⟩ := h k o hb
    simp only [h1]
    rw [if_neg (by omega)]
  | _ => rfl

theorem overlaps_iff (e f : Entry) : e.overlaps f = true ↔ SharesAddress e f := by
  unfold Entry.overlaps Entry.top SharesAddress
  rw [Bool.and_eq_true, decide_eq_true_iff, decide_eq_true_iff]

theorem overlapIndex_none {es : List Entry} {e : Entry} (h : ∀ f ∈ es, ¬ SharesAddress e f) :
    overlapIndex es e = none := by
  unfold overlapIndex
  rw [List.findIdx?_eq_none_iff]
  intro f hf
  have := h f hf
  rw [← overlaps_iff] at this
  simpa using this

theorem insertAnswer_taken {s : State} {r : InsertRequest} {e : Entry} (hl : s.tables.stagedLock = false)
    (he : r.entry = some e) (hs : SegmentReady s e) (hn : s.tables.staged.length < 32)
    (ho : ∀ f ∈ s.tables.staged, ¬ SharesAddress e f) :
    insertAnswer s r = .taken e (s.tables.staged.countP fun f => decide (f.base.toNat < e.base.toNat)) := by
  rw [insertAnswer, if_neg (by simp [hl]), he]
  dsimp only
  rw [segmentRefusal_none hs]
  dsimp only
  rw [if_neg (by simp only [Config.tableEntries]; omega), overlapIndex_none ho]
  rfl

theorem setSegment_segment (s : State) (h : Handle) (g : Segment) : (s.setSegment h g).segment h = g := by
  simp [State.segment, State.setSegment]

/-- R78: the placing of an entry and its increment claim. -/
theorem placeEntry_eq {s : State} {e : Entry} {p : Nat} (hp : p ≤ s.tables.staged.length) :
    (e.segment? = none → s.placeEntry e p = { s with
      tables := { s.tables with staged := s.tables.staged.take p ++ e :: s.tables.staged.drop p } })
    ∧ ∀ h r d, e.segment? = some h → s.segment h = .sealed r d → s.placeEntry e p = { s with
      tables := { s.tables with staged := s.tables.staged.take p ++ e :: s.tables.staged.drop p }
      mem := s.mem.withSegment h (.sealed r { d with references := d.references + 1 }) } := by
  have hi : s.tables.staged.insertIdx p e = s.tables.staged.take p ++ e :: s.tables.staged.drop p := by
    apply List.ext_getElem?
    intro i
    rw [List.getElem?_insertIdx]
    have hlen : (s.tables.staged.take p).length = p := by simp [hp]
    by_cases h1 : i < p
    · rw [if_pos h1, List.getElem?_append_left (by omega), List.getElem?_take_of_lt h1]
    · rw [if_neg h1, List.getElem?_append_right (by omega), hlen]
      by_cases h2 : i = p
      · subst h2
        simp [hp]
      · rw [if_neg h2, show i - p = (i - 1 - p) + 1 by omega, List.getElem?_cons_succ, List.getElem?_drop]
        congr 1
        omega
  refine ⟨fun h => ?_, fun k r d h hg => ?_⟩
  · simp only [State.placeEntry, State.addEntry, h, hi]
    rfl
  · simp only [State.placeEntry, State.addEntry, h, State.increment, hi]
    rw [show (s.setStaged (s.tables.staged.take p ++ e :: s.tables.staged.drop p)).segment k = .sealed r d from hg]
    rfl

/-! ### Allocation (R46, R47) -/

theorem granuleFree_iff (s : State) (g : Nat) :
    granuleFree s g = true ↔ ∀ h : Handle, (s.segment h).owns g = false := by
  simp [granuleFree, granuleOwner, List.find?_eq_none]

theorem runFree_iff (s : State) (g k : Nat) :
    runFree s g k = true ↔ ∀ i < k, ∀ h : Handle, (s.segment h).owns (g + i) = false := by
  simp [runFree, List.all_eq_true, granuleFree_iff]

theorem lowestFreeHandle_some {s : State} {h : Handle} (hf : s.segment h = .free) (hl : ∀ j < h, s.segment j ≠ .free) :
    lowestFreeHandle s = some h := by
  unfold lowestFreeHandle
  rw [List.find?_eq_some_iff_getElem]
  refine ⟨(isFree_eq_true_iff _).2 hf, h.val, by simp, by simp, ?_⟩
  intro j hj
  have hne := hl ⟨j, by omega⟩ hj
  have : (s.segment ⟨j, by omega⟩).isFree ≠ true := fun e => hne ((isFree_eq_true_iff _).1 e)
  simpa using this

theorem lowestFreeHandle_none {s : State} (h : ∀ j, s.segment j ≠ .free) : lowestFreeHandle s = none := by
  unfold lowestFreeHandle
  rw [List.find?_eq_none]
  intro j _ e
  exact h j ((isFree_eq_true_iff _).1 e)

theorem firstFit_some {s : State} {g k : Nat} (hk : k ≤ 512) (hr : RunIsFree s g k)
    (hl : ∀ g' < g, ¬ RunIsFree s g' k) : firstFit s k = some g := by
  unfold firstFit
  rw [List.find?_eq_some_iff_getElem]
  have hg : g + k ≤ 512 := hr.1
  refine ⟨(runFree_iff _ _ _).2 hr.2, g, by simp [Config.granules]; omega, by simp, ?_⟩
  intro j hj
  have hn := hl j hj
  have : runFree s j k ≠ true := fun e => hn ⟨by simp only [Config.granules]; omega, (runFree_iff _ _ _).1 e⟩
  simpa using this

theorem firstFit_none {s : State} {k : Nat} (hk : k ≤ 512) (h : ∀ g, ¬ RunIsFree s g k) : firstFit s k = none := by
  unfold firstFit
  rw [List.find?_eq_none]
  intro g hg e
  simp only [List.mem_range, Config.granules] at hg
  exact h g ⟨by simp only [Config.granules]; omega, (runFree_iff _ _ _).1 e⟩

/-- R46: the answer of an allocation that is taken. -/
theorem allocAnswer_taken {s : State} {h : Handle} {g k : Nat} (h1 : 1 ≤ k) (hk : k ≤ 512) (hf : s.segment h = .free)
    (hl : ∀ j < h, s.segment j ≠ .free) (hr : RunIsFree s g k) (hg : ∀ g' < g, ¬ RunIsFree s g' k) :
    allocAnswer s k = .taken h { first := g, count := k } := by
  rw [allocAnswer, if_neg (by simp only [Config.granules]; omega), lowestFreeHandle_some hf hl]
  dsimp only
  rw [firstFit_some hk hr hg]

/-! ### The loader's slots (R164, R170 to R173) -/

/-- R170 to R172: the failure of the current slot. -/
theorem failSlot_eq {s : State} {x : Slot} (h : s.loader.slot = some x) (r : SlotResult) (i : Nat) :
    s.failSlot r i = slotFailed s x r i := by
  have hram : ∀ t : State, (t.clearStaged.freeMap).mem.ram = t.mem.ram := by
    intro t
    simp
  unfold State.failSlot
  generalize hl : ({ s.loader.report { result := r, index := i } with transaction := none } : Loader) = l
  have hslot : l.slot = some x := by
    rw [← hl]
    simp [Loader.report, h]
  have hroll : (s.setLoader l).rollback = { s with
      tables := tablesReset, gen := genReset, mem := { memReset with ram := s.mem.ram }, loader := l.rollback } := by
    apply State.ext_blocks <;> simp [State.rollback, State.setLoader, PatchMemory.rollback]
  simp only [hroll, State.fallBack]
  have hs2 : l.rollback.slot = some x := hslot
  simp only [hs2]
  subst hl
  cases x <;> simp [Loader.report, h, slotFailed, State.startSlot, State.endRun, State.setLoader, slotAddress,
    Loader.rollback, OutcomeRecord.report, State.raise, Interrupts.raise, Cause.mask, Cause.bit, crc32Init]

theorem failRecord_eq {s : State} {x : Slot} (h : s.loader.slot = some x) (r : SlotResult) :
    s.failRecord r = slotFailed s x r s.loader.recordsTaken := failSlot_eq h r _

/-- A slot's failure does not depend on what has been read of its body. -/
theorem slotFailed_readBody (s : State) (bs : List Byte) (x : Slot) (r : SlotResult) (i : Nat) :
    slotFailed (s.readBody bs) x r i = slotFailed s x r i := by
  cases x <;> rfl

theorem failRecord_readBody {s : State} {x : Slot} (h : s.loader.slot = some x) (bs : List Byte) (r : SlotResult) :
    (s.readBody bs).failRecord r = slotFailed s x r s.loader.recordsTaken :=
  (failRecord_eq (s := s.readBody bs) h r).trans (slotFailed_readBody _ _ _ _ _)

theorem atRecord_true {s : State} {x : Slot} {h : ImageHeader} (ha : AtRecord s x h) : atRecord s = true := by
  obtain ⟨_, h2, h3, h4, _, _⟩ := ha
  simp [atRecord, inPhase, loaderRunning, h2, h3, h4]

theorem bodyLeft_eq {s : State} {x : Slot} {h : ImageHeader} (ha : AtRecord s x h) :
    bodyLeft s = h.bodyLength.toNat - s.loader.bodyRead := by
  simp [bodyLeft, bodyLength, ha.2.2.2.2.2]

/-- R164, check 3: a record whose fixed part passes the end of the body. -/
theorem record_short {s : State} {x : Slot} {h : ImageHeader} (ha : AtRecord s x h) {bs : List Byte}
    (hl : h.bodyLength.toNat - s.loader.bodyRead < bs.length) (act : State → State) :
    s.record bs act = slotFailed s x .recordBad s.loader.recordsTaken := by
  rw [State.record, if_neg (by simp [atRecord_true ha]), if_pos (by rw [bodyLeft_eq ha]; exact hl),
    failRecord_eq ha.2.2.2.2.1]

theorem record_read {s : State} {x : Slot} {h : ImageHeader} (ha : AtRecord s x h) {bs : List Byte}
    (hl : bs.length ≤ h.bodyLength.toNat - s.loader.bodyRead) (act : State → State) :
    s.record bs act = act (s.readBody bs) := by
  rw [State.record, if_neg (by simp [atRecord_true ha]), if_neg (by rw [bodyLeft_eq ha]; omega)]

/-- R159: a read command's bytes as the bits of its address. -/
theorem readCommand_eq (a : FlashAddr) :
    readCommand a = [0x03, a.extractLsb' 16 8, a.extractLsb' 8 8, a.extractLsb' 0 8] := by
  have h : ∀ n, byte (a.toNat / 2 ^ n) = a.extractLsb' n 8 := fun n =>
    BitVec.eq_of_toNat_eq (by simp [byte, Nat.shiftRight_eq_div_pow])
  have h0 := h 0
  rw [Nat.pow_zero, Nat.div_one] at h0
  rw [readCommand, ← h 16, ← h 8, ← h0]; rfl

end Sys2Proof.Machine
end

