-- ==== Sys2Proof/Tests/Slice0.lean ====
section
/-! SUPPORT. Small tests of one step each, from the manual's examples where it gives one, and for every statement a
witness: a concrete state and operands that meet its hypotheses, clause by clause. -/

namespace Sys2Proof.Tests

set_option Elab.async false

open Sys2Proof Sys2Proof.Machine

/-! ### States -/

/-- The state after a command; the state itself where it stops (no command stops). -/
def after (c : Instr) (s : State) : State :=
  match exec c s with
  | .next t => t
  | .fault _ => s
  | .refused _ => s

/-- Out of reset with the loader's run over: every command is taken. -/
def ready : State := { State.reset with loader := { loaderReset with state := .done } }

/-- The parameter bytes. -/
def given (s : State) (bs : List Byte) : State := { s with cmd := { s.cmd with params := resultBytes bs } }

def inGen (s : State) (g : GenState) : State := { s with gen := { s.gen with state := g } }

def withPrior (s : State) : State :=
  { s with tables := { s.tables with prior := some { entries := [], generation := 7 } } }

def withSeg (s : State) (h : Handle) (g : Segment) : State := { s with mem := s.mem.withSegment h g }

def withLive (s : State) (es : List Entry) : State :=
  { s with tables := { s.tables with live := { entries := es, generation := 3 } } }

def withStaged (s : State) (es : List Entry) : State := { s with tables := { s.tables with staged := es } }

def entry (base : FetchAddr) (length : Nat) (body : EntryBody) : Entry :=
  { base := base, length := length, applies := .any, body := body, hits := 0 }

def run2 : Run := { first := 0, count := 2 }

def sealed (refs : Nat) : Segment := .sealed run2 { length := 48, crc := 5, references := refs }

def pendingNow : GenState := .commitPending { mode := .now, probation := 0, tolerance := 0 }

def pendingAt : GenState := .commitPending { mode := .atAddress 0x400, probation := 5, tolerance := 1 }

def pendingReset : GenState := .commitPending { mode := .atTargetReset, probation := 5, tolerance := 1 }

/-- A read presentation at 00400h. -/
def reading (l : FetchLength) : Presentation := { address := 0x400, length := l, kind := .code, dir := .read, data := 0 }

def writing : Presentation := { address := 0x400, length := .one, kind := .data, dir := .write, data := 9 }

/-- A request in progress that waits for its ROM read cycle. -/
def romRead (s : State) (l : FetchLength) : State :=
  { s with fetch := { s.fetch with
      request := some (acceptedRequest s (reading l)), romAddress := 0x400, romCycle := .read } }

def romWrite (s : State) (left : Nat) : State :=
  { s with fetch := { s.fetch with
      request := some { acceptedRequest s writing with length := .two, left := left }
      romAddress := 0x400, romCycle := .write 9 } }

def standing (s : State) (p : Presentation) : State :=
  { s with pins := { s.pins with freq := true }, fetch := { s.fetch with standing := some p } }

def inReset (s : State) : State := { s with pins := { s.pins with xrst := true } }

def targetHeld (s : State) : State := { s with pins := { s.pins with trst := true } }

/-- Patch RAM's port with an access in progress and the claims that wait. -/
def onPort (s : State) (x : RamAccess) (f : Option FetchClaim) (d c : Bool) : State :=
  { s with mem := { s.mem with arbiter := { serving := some x, fetchWaits := f, dataWaits := d, crcWaits := c } } }

def busyWith (h : HeldCommand) : State := { ready with cmd := { ready.cmd with busy := some h } }

/-- A seal of two words with one word still to fold. -/
def sealing (forLoader : Bool) (offset : Nat) (expected : Crc32) : State :=
  let s := withSeg ready 0 (.sealing run2 2)
  { s with mem := { s.mem with
      crcJob := some { handle := 0, length := 2, expected := expected, remainder := 0xFFFFFFFF, offset := offset,
                       forLoader := forLoader }
      arbiter := { serving := some .crcRead, fetchWaits := none, dataWaits := false, crcWaits := false } } }

def running (p : LoaderPhase) (x : Option Slot) : State :=
  { State.reset with loader := { loaderReset with state := .running, phase := p, slot := x, lden := true } }

/-- The header bytes of a one-record image whose END record is its whole body. -/
def header : Vector Byte 16 :=
  #v[0x36, 0x4F, 1, 1, 7, 5, 0, 1, 1, 0, 0x37, 0xBE, 0x0B, 0x4B, 0x13, 0x92]

def headerWith (count length : Nat) (crc : Crc32) : ImageHeader :=
  { mark := 0x4F36, format := 1, flags := 1, tolerance := 7, probation := 5, recordCount := BitVec.ofNat 8 count,
    bodyLength := BitVec.ofNat 16 length, bodyCrc := crc, headerCrc := 0 }

/-- At the type byte of a record of slot A, under a header. -/
def atBody (h : ImageHeader) : State :=
  let s := running .records (some .a)
  { s with loader := { s.loader with header := some h } }

/-! ### Ill-formed commands -/

theorem test_illFormed_badCommand : (Instr.badCommand 0x10).wellFormed = false := by decide
theorem test_illFormed_ignoredWrite : (Instr.windowWriteIgnored 0 5 false).wellFormed = false := by decide
theorem test_illFormed_recordType : (Instr.unknownRecordType 1).wellFormed = false := by decide
theorem test_wellFormed_edges :
    (Instr.badCommand 0x16).wellFormed = true ∧ (Instr.windowWriteIgnored 2 5 false).wellFormed = true
      ∧ (Instr.windowWriteIgnored 0 5 true).wellFormed = true ∧ (Instr.unknownRecordType 4).wellFormed = true := by
  decide
theorem test_illFormed_leavesTheState :
    (after (.badCommand 0x10) ready) = ready ∧ (after (.unknownRecordType 1) (atBody (headerWith 1 9 0)))
      = atBody (headerWith 1 9 0) := by decide +kernel

/-! ### The checks (R60, R162) -/

theorem test_crc32_digits : crc32 [0x31, 0x32, 0x33, 0x34, 0x35, 0x36, 0x37, 0x38, 0x39] = 0xCBF43926 := by decide +kernel
theorem test_crc32_twoZeroWords : crc32 [0, 0, 0, 0] = 0x2144DF1C := by decide +kernel
theorem test_crc16_digits : crc16 [0x31, 0x32, 0x33, 0x34, 0x35, 0x36, 0x37, 0x38, 0x39] = 0x29B1 := by decide +kernel

/-! ### The part's lines (R159, R180, R186) -/

theorem test_cmdWrite : cmdWrite 0x12 = .segSeal ∧ cmdWrite 0x60 = .ldrStatus ∧ cmdWrite 0 = .badCommand 0 := by decide
theorem test_windowWrite :
    windowWrite 0x1F 7 = .parameterWrite 15 7 ∧ windowWrite 2 7 = .windowWriteIgnored 2 7 false
      ∧ windowAccess true true false 6 7 = some .dataHiRead
      ∧ windowAccess false true true 6 7 = none := by decide
theorem test_presentLines : presentLines 0x403 3 false true 9 = .freqPresent 0x403 .eight .code .write 9 := by decide
theorem test_spi_idle : spiLevels State.reset = spiIdle ∧ sdoBytes State.reset = [] := by decide
theorem test_spi_command :
    sdoBytes (after .zeroFillEnd (running .zeroFill none)) = [0x03, 0, 0, 0]
      ∧ sdoBytes { State.reset with loader := { loaderReset with transaction := some 0x010203 } } = [3, 1, 2, 3]
      ∧ nextFlashByte (after .zeroFillEnd (running .zeroFill none)) = some 0 := by decide +kernel
/-- The bits of 03h go out most significant first, each held while SCK rises. -/
theorem test_spi_byte :
    ((spiByte 0x03).filter (·.sck)).map (·.sdo) = [false, false, false, false, false, false, true, true]
      ∧ ((spiByte 0x03).map (·.sck)).take 4 = [false, true, false, true] := by decide
theorem test_spi_sample :
    sampledByte #v[false, false, false, false, false, false, true, true] = 0x03 ∧ undrivenByte = 0xFF := by decide

/-! ### The manual's examples -/

/-- The table of "resolving words against a table" (1.2). -/
def exampleTable : List Entry :=
  [{ base := 0x1200, length := 64, applies := .any, body := .replace 1 0, hits := 0 },
   { base := 0x1240, length := 1, applies := .code, body := .trap 0x0D3C, hits := 0 },
   { base := 0x2000, length := 16, applies := .data, body := .fill 0xFFFF, hits := 0 },
   { base := 0x4000, length := 256, applies := .code, body := .count, hits := 0 }]

theorem test_resolve_example :
    resolve exampleTable 0x1234 .code = .replace 1 0x34 0 ∧ resolve exampleTable 0x1234 .data = .replace 1 0x34 0
      ∧ resolve exampleTable 0x123F .code = .replace 1 0x3F 0 ∧ resolve exampleTable 0x1240 .code = .trap 0x0D3C 1
      ∧ resolve exampleTable 0x1240 .data = .passthrough ∧ resolve exampleTable 0x2000 .code = .passthrough
      ∧ resolve exampleTable 0x200F .data = .fill 0xFFFF 2 ∧ resolve exampleTable 0x4000 .code = .countOnly 3
      ∧ resolve exampleTable 0x4100 .code = .passthrough := by decide +kernel

/-- "Numbering through a wrap" (5.9). -/
theorem test_numbering_example :
    switchNumber 65534 65534 = 65535 ∧ switchNumber 65535 65534 = 1 ∧ switchNumber 1 1 = 2
      ∧ switchNumber 65535 1 = 2 := by decide

/-- Handle 2 owns granules 2 and 3, so the lowest free run has two granules. -/
def examplePool : State := withSeg ready 1 (.opened { first := 2, count := 2 })

theorem test_alloc_passesOverAShortRun :
    (after .segAlloc (given examplePool [3, 0])).cmd.params = resultBytes [1, 4, 0, 3, 0, 96, 0]
      ∧ (after .segAlloc (given examplePool [2, 0])).cmd.params = resultBytes [1, 0, 0, 2, 0, 64, 0] := by decide +kernel

/-- The packed fields of handle 2 in the example of R182. -/
theorem test_info_example :
    let g := Segment.sealed { first := 100, count := 200 } { length := 3000, crc := 0, references := 2 }
    (bytes2 (g.stateCode + 64 * 32) = [0x03, 0x08] ∧ bytes2 (g.firstGranule + 512 * g.references) = [0x64, 0x04])
      ∧ bytes2 (g.granuleCount + 1024 * 45) = [0xC8, 0xB4] ∧ bytes2 g.sealedLength = [0xB8, 0x0B]
      ∧ bytes2 (pointerField (some { handle := 1, offset := 5 })) = [0x05, 0x80] := by decide +kernel

theorem test_genStatus_example :
    (after .genStatus { withPrior ready with
        gen := { ready.gen with counter := 10, resetCount := 1, tolerance := 1, lastOutcome := .expiredReverted } }).cmd.params
      = resultBytes [0x50, 0, 0, 0, 7, 0, 10, 0, 0, 0, 0, 0, 0, 0, 0, 0x11] := by decide +kernel

/-! ### One step of each kind -/

theorem test_powerOn : (after (.powerOn true false true) ready).pins.freq = true
    ∧ (after (.powerOn true false true) ready).loader.lden = true := by decide
theorem test_xrst : (after .xrstAssert (withPrior ready)).tables.prior = none
    ∧ (after (.xrstRelease true) (inReset ready)).loader.state = .running := by decide
theorem test_trst_endsTheRequest : (after .trstAssert (romRead ready .two)).fetch.request = none := by decide
theorem test_fetch_startsTheRom : (after (.freqPresent 0x403 .four .code .read 0) ready).fetch.romAddress = 0x400 := by decide
theorem test_romRead_delivers :
    (after (.romReadDone 0xABCD) (romRead ready .two)).fetch.beats = [{ address := 0x400, data := some 0xABCD }]
      ∧ (after (.romReadDone 0xABCD) (romRead ready .two)).fetch.romAddress = 0x401 := by decide
theorem test_romWrite_shadows :
    ((after (.romWriteDone 0) (romWrite (withLive ready [entry 0x400 2 (.fill 1)]) 2)).log.records.map (·.body))
      = [.shadow 9] := by decide +kernel
theorem test_dataPort_roundTrip :
    (after .dataLoRead (after .segSelect (given (after (.dataHiWrite 0x12) (after (.dataLoWrite 0x34)
      (after .segSelect (given (withSeg ready 0 (.opened run2)) [1, 0, 0])))) [1, 0, 0]))).windowData = some 0x34 := by
  decide +kernel
theorem test_seal_becomesSealing :
    ((after .segSeal (given (withSeg ready 0 (.opened run2)) [1, 2, 0])).segment 0) = .sealing run2 2 := by decide +kernel
theorem test_seal_completes :
    ((after .sealComplete (sealing false 1 0x2144DF1C)).segment 0).stateCode = 1 := by decide +kernel
theorem test_free_condemns : ((after .segFree (given (withSeg ready 0 (sealed 1)) [1])).segment 0).stateCode = 4 := by
  decide +kernel
theorem test_unseal : ((after .segUnseal (given (withSeg ready 0 (sealed 0)) [1])).segment 0) = .opened run2 := by
  decide +kernel
theorem test_insert_order :
    ((after .stgInsert (given (withStaged ready [entry 0x300 1 .count, entry 0x500 1 .count])
      [0, 4, 0, 2, 0, 2, 3, 0, 0, 0, 0x34, 0x12])).tables.staged.map (·.body)) = [.count, .fill 0x1234, .count] := by
  decide +kernel
theorem test_insert_overlap :
    (after .stgInsert (given (withStaged ready [entry 0x300 1 .count, entry 0x401 1 .count])
      [0, 4, 0, 2, 0, 2, 3])).cmd.params = resultBytes [1, 2] := by decide +kernel
theorem test_remove_lowersTheCount :
    ((after .stgRemove (given (withSeg (withStaged ready [entry 0x400 1 (.replace 0 0)]) 0 (sealed 1))
      [0, 4, 0])).segment 0).references = 0 := by decide +kernel
theorem test_copyLive : (after .stgCopyLive (withLive ready [entry 0x400 1 .count])).tables.staged.length = 1 := by
  decide +kernel
theorem test_tblRead :
    (after .tblRead (given (withLive ready [entry 0x400 2 (.fill 0x1234)]) [1, 0])).cmd.params
      = resultBytes [0, 4, 0, 2, 0, 2, 3, 0, 0, 0, 0x34, 0x12, 0, 0, 0, 0x81] := by decide +kernel
theorem test_commit_now : (after .commit (given (withStaged ready [entry 0x400 1 .count]) [1])).tables.live.generation = 1
    ∧ (after .commit (given ready [3])).tables.stagedLock = true := by decide +kernel
theorem test_abort : (after .commitAbort (inGen ready pendingAt)).cmd.params = resultBytes [2, 0] := by decide +kernel
theorem test_revert : (after .revert (withPrior ready)).tables.live.generation = 7 := by decide +kernel
theorem test_confirm : (after .confirm (inGen ready .probation)).gen.lastOutcome = .confirmed := by decide +kernel
theorem test_tick_expires :
    (after .msTick { inGen (withPrior ready) .probation with
      gen := { ready.gen with state := .probation, timer := 1 } }).irq.pending = 0b0001000 := by decide +kernel
theorem test_logPop_empty : (after .logPop ready).cmd.result = .logEmpty := by decide +kernel
theorem test_busy_refuses : (after .confirm (busyWith .revert)).irq.pending = 0b1000000 := by decide +kernel
theorem test_badCommand : (after (.badCommand 0xFF) ready).cmd.result = .badCommand := by decide +kernel
theorem test_header_begins : (after (.headerReceived header) (running .header (some .a))).loader.phase = .records := by
  decide +kernel
theorem test_header_markFails :
    (after (.headerReceived (header.set 0 0)) (running .header (some .b))).loader.outcome.overall = .noValidImage := by
  decide +kernel
theorem test_end_commits :
    (after .endRecord (after (.headerReceived header) (running .header (some .a)))).gen.state = .probation := by
  decide +kernel
theorem test_runEnd : (after .loaderRunEnd (running .switchWait (some .a))).loader.outcome.committed = some 1 := by decide
theorem test_zeroFill : (after .zeroFillEnd (running .zeroFill none)).loader.transaction = some 0 := by decide
theorem test_segmentRecord :
    (after (.segmentRecord 33 0) (atBody (headerWith 2 200 0))).segment 0 = .opened run2 := by decide +kernel
theorem test_entryRecord :
    (after (.entryRecord 0x400 2 2 3 0 0 7) (atBody (headerWith 2 14 0))).tables.staged = [entry 0x400 2 (.fill 7)] := by
  decide +kernel
theorem test_unknownRecord :
    (after (.unknownRecordType 9) (atBody (headerWith 2 14 0))).loader.outcome.slotA = { result := .recordBad, index := 0 } := by
  decide +kernel
theorem test_emptyQueue_isATick :
    (match step { ready with divider := 31999 } with | .next t => t.divider | _ => 5) = 0 := by decide +kernel

/-- The last word of a request under a COUNT entry, with a NOW commit waiting for the end of the request. -/
def lastCounted : State := romRead (inGen (withLive ready [entry 0x400 1 .count]) pendingNow) .one

def priorHits (s : State) : List Nat := s.tables.priorEntries.map (·.hits)

/-- R17: a CNT_CLEAR may fall between the last word's hit and the movement, and PRIOR then holds 0. -/
theorem test_countClear_beforeTheMovement :
    priorHits (after .switch (after .cntClear (after (.romReadDone 3) lastCounted))) = [0]
      ∧ priorHits (after .switch (after (.romReadDone 3) lastCounted)) = [1]
      ∧ (after .cntClear (after (.romReadDone 3) lastCounted)).cmd.params = resultBytes [1, 3, 0] := by decide +kernel

theorem test_emptyQueue_takesTheMovement :
    (match step (after (.romReadDone 3) lastCounted) with | .next t => priorHits t | _ => []) = [1] := by decide +kernel

/-- R17, R24: the request has ended with a presentation of a filled word standing, and the NOW commit is switched first: a
CNT_CLEAR or a TBL_READ may fall between the movement and the hit of the acceptance that follows. -/
def switchThenFill : State :=
  after .switch (after (.romReadDone 3)
    (standing (romRead (inGen (withStaged (withLive ready []) [entry 0x400 1 (.fill 7)]) pendingNow) .one) (reading .one)))

theorem test_countClear_betweenMovementAndAcceptance :
    switchThenFill.fetch.standing = some (reading .one)
      ∧ (after .cntClear (after .fetchAccept switchThenFill)).cmd.params = resultBytes [1, 1, 0]
      ∧ ((after .fetchAccept (after .cntClear switchThenFill)).tables.live.entries.map (·.hits)) = [1]
      ∧ ((after .cntClear (after .fetchAccept switchThenFill)).tables.live.entries.map (·.hits)) = [0] := by
  decide +kernel

/-! ### Witnesses: the hypotheses of each statement, met by a concrete state -/

theorem witness_step : ({ ready with pending := [Instr.msTick] }).pending = [Instr.msTick] := rfl

theorem witness_emptyQueue :
    ready.pending = [] ∧ (inReset ready).pins.xrst = true ∧ ready.pins.xrst = false ∧ ready.divider.val < 31999
      ∧ ({ ready with divider := 31998 }).divider.val < 31999 ∧ ({ ready with divider := 31999 }).divider.val = 31999
      ∧ (NoAcceptance ready ∧ movementWaits ready = false) ∧ (romRead ready .one).fetch.request.isSome = true
      ∧ ((inGen ready pendingNow).fetch.request = none ∧ (inGen ready pendingNow).gen.state = pendingNow)
      ∧ (inGen (withPrior ready) (.revertWaiting .expiry)).gen.state = .revertWaiting .expiry
      ∧ (movementWaits (standing ready writing) = false ∧ (standing ready writing).fetch.standing.isSome = true
        ∧ (standing ready writing).pins.trst = false ∧ (standing ready writing).fetch.request = none)
      ∧ ((onPort ready .dataAccess none false true).mem.arbiter.serving = some .dataAccess
        ∧ ready.mem.arbiter.serving ≠ some .dataAccess) := by
  decide

theorem noSwitch_steady {s : State} {p : Presentation} (h : s.gen.state = .steady) : NoSwitchAt s p := by
  intro c hc
  rw [h] at hc
  cases hc

theorem witness_resets : ready.pins.xrst = false ∧ (inReset ready).pins.xrst = true := by decide

theorem witness_targetReset :
    (ready.pins.xrst = false ∧ ready.pins.trst = false ∧ ready.gen.state = .steady)
      ∧ (∃ c a, (inGen ready pendingAt).gen.state = .commitPending c ∧ c.mode = .atAddress a)
      ∧ ((targetHeld ready).pins.trst = true ∧ (targetHeld ready).fetch.request = none
          ∧ movementWaits (targetHeld ready) = false ∧ (targetHeld ready).fetch.standing = none)
      ∧ ((targetHeld (standing ready writing)).fetch.standing = some writing
        ∧ NoSwitchAt (targetHeld (standing ready writing)) writing
        ∧ (targetHeld (standing (inGen ready pendingAt) (reading .four))).gen.state = pendingAt
        ∧ (reading .four).meets 0x400 = true
        ∧ movementWaits (targetHeld (standing (inGen ready pendingAt) (reading .four))) = false)
      ∧ (∃ c, (inGen ready pendingNow).gen.state = .commitPending c ∧ (c.mode = .now ∨ c.mode = .atTargetReset))
      ∧ (∃ c, (inGen ready pendingReset).gen.state = .commitPending c ∧ c.mode = .atTargetReset)
      ∧ (inGen (withPrior ready) (.revertWaiting .expiry)).gen.state = .revertWaiting .expiry
      ∧ (inGen (withPrior ready) (.revertWaiting .expiry)).tables.prior.isSome = true := by
  refine ⟨by decide, ⟨_, _, rfl, rfl⟩, by decide, ⟨rfl, noSwitch_steady rfl, rfl, by decide, rfl⟩, ⟨_, rfl, Or.inl rfl⟩, ⟨_, rfl, rfl⟩, rfl, rfl⟩

/-- A trial with tolerance 2 in which one reset has been counted, and one at its tolerance. -/
def onTrial (count : Nat) (timer : Word) : State :=
  { withPrior ready with gen := { ready.gen with state := .probation, timer := timer, resetCount := count, tolerance := 2 } }

theorem witness_countedReset :
    (onTrial 1 5).gen.state = .probation ∧ (onTrial 1 5).pins.trst = false
      ∧ (onTrial 1 5).gen.resetCount + 1 ≤ (onTrial 1 5).gen.tolerance.val
      ∧ (onTrial 2 5).gen.resetCount + 1 > (onTrial 2 5).gen.tolerance.val
      ∧ (onTrial 2 5).tables.prior.isSome = true := by decide

theorem witness_presentation :
    (ready.pins.xrst = false ∧ ready.pins.freq = false ∧ (romRead ready .two).fetch.request.isSome = true)
      ∧ ((targetHeld ready).pins.trst = true ∧ movementWaits (targetHeld ready) = false)
      ∧ (ready.pins.trst = false ∧ movementWaits (inGen ready pendingNow) = true)
      ∧ ((standing ready writing).pins.freq = true ∧ movementWaits (standing ready writing) = false)
      ∧ ((standing (romRead ready .two) writing).fetch.request.isSome = true)
      ∧ ((standing (inGen ready pendingNow) writing).pins.freq = true
        ∧ (standing (inGen ready pendingNow) writing).fetch.request = none
        ∧ (standing (inGen ready pendingNow) writing).gen.state = pendingNow)
      ∧ ((standing (inGen (withPrior ready) (.revertWaiting .expiry)) writing).gen.state = .revertWaiting .expiry
        ∧ (withPrior ready).tables.prior.isSome = true)
      ∧ (inReset ready).pins.xrst = true := by decide

theorem witness_portOpen :
    PortOpen ready ∧ (reading .four).dir = .read ∧ (standing ready (reading .four)).fetch.standing = some (reading .four)
      ∧ (standing ready (reading .four)).fetch.request = none := by decide

theorem witness_resolves :
    TableForm exampleTable ∧ exampleTable[0]? = some ⟨0x1200, 64, .any, .replace 1 0, 0⟩
      ∧ (0x1200 ≤ (0x1200 : FetchAddr).toNat ∧ (0x123F : FetchAddr).toNat < 0x1200 + 64)
      ∧ (∀ e ∈ exampleTable, ¬ (e.base.toNat ≤ (0x11FF : FetchAddr).toNat ∧ (0x11FF : FetchAddr).toNat < e.base.toNat + e.length))
      ∧ exampleTable[1]? = some ⟨0x1240, 1, .code, .trap 0x0D3C, 0⟩
      ∧ exampleTable[2]? = some ⟨0x2000, 16, .data, .fill 0xFFFF, 0⟩ := by decide +kernel

theorem witness_acceptance :
    PortOpen ready ∧ NoSwitchAt ready (reading .four)
      ∧ resolve ready.tables.live.entries (alignAddress 0x400 .four) .code = .passthrough
      ∧ resolve (withLive ready [entry 0x400 1 .count]).tables.live.entries (alignAddress 0x400 .four) .code = .countOnly 0
      ∧ resolve (withLive ready [entry 0x400 1 (.replace 0 5)]).tables.live.entries (alignAddress 0x400 .four) .code
          = .replace 0 5 0
      ∧ writing.dir = .write
      ∧ ((standing (inGen ready pendingAt) { reading .four with address := 0x403 }).fetch.standing
            = some { reading .four with address := 0x403 }
          ∧ (inGen ready pendingAt).gen.state = .commitPending { mode := .atAddress 0x400, probation := 5, tolerance := 1 }
          ∧ alignAddress 0x403 .four = 0x400
          ∧ resolve (inGen ready pendingAt).tables.staged (alignAddress 0x403 .four) .code = .passthrough
          ∧ (standing (inGen ready pendingAt) (reading .four)).fetch.request = none
          ∧ resolve (withStaged ready [entry 0x400 4 (.fill 7)]).tables.staged (alignAddress 0x403 .four) .code
              = .fill 7 0
          ∧ PortOpen (inGen ready pendingAt)) :=
  ⟨by decide, noSwitch_steady rfl, by decide, by decide, by decide, rfl, rfl, rfl, by decide, by decide, rfl,
    by decide, by decide⟩

/-- An acceptance that has taken a switch, with a FILL entry now LIVE over its words. -/
def switchedToAFill : State :=
  after (.freqPresent 0x400 .two .code .read 0) (inGen (withStaged ready [entry 0x400 2 (.fill 7)]) pendingAt)

/-- R21, R91: an open port accepts the presentation within its own event and takes the switch within the acceptance; it
does so at the release of TRST# and at SWITCH as well. -/
theorem test_acceptance_switches :
    switchedToAFill.gen.state = .probation ∧ switchedToAFill.fetch.request.isSome = true
      ∧ switchedToAFill.fetch.standing = none ∧ (after .freqRelease switchedToAFill).fetch = switchedToAFill.fetch
      ∧ (after .trstRelease (targetHeld (standing (inGen ready pendingAt) (reading .two)))).gen.state = .probation
      ∧ (after .trstRelease (targetHeld (standing (inGen ready pendingAt) (reading .two)))).fetch.romCycle = .read
      ∧ (after .switch (standing (inGen ready pendingAt) (reading .two))).fetch.romCycle = .read := by decide +kernel

/-- R17, R91: a CNT_CLEAR may fall between that switch and the first hit, and an assertion of TRST# ends the request with
the switch standing. -/
theorem test_acceptance_deliversAfterTheSwitch :
    (after .fetchAccept switchedToAFill).fetch.beats
        = [{ address := 0x400, data := some 7 }, { address := 0x401, data := some 7 }]
      ∧ (after .fetchAccept (after .cntClear switchedToAFill)).tables.live.entries.map (·.hits) = [2]
      ∧ (after .trstAssert switchedToAFill).fetch.request = none
      ∧ (after .trstAssert switchedToAFill).gen.state = .probation := by decide +kernel

theorem readyWord_of {s : State} (h : wordReady s = true) : ¬ NoReadyWord s := fun hn => by
  rw [wordReady_iff.2 hn] at h; exact absurd h Bool.false_ne_true

theorem witness_readyWord :
    ¬ NoReadyWord switchedToAFill ∧ switchedToAFill.pending = [] ∧ switchedToAFill.pins.xrst = false
      ∧ switchedToAFill.mem.arbiter.serving ≠ some .dataAccess ∧ NoReadyWord ready :=
  ⟨readyWord_of (by decide +kernel), by decide +kernel, by decide +kernel, by decide +kernel,
    fun r hr => by cases hr⟩

theorem test_emptyQueue_deliversAReadyWord :
    (match step switchedToAFill with | .next t => t.fetch.request | _ => switchedToAFill.fetch.request) = none := by
  decide +kernel

theorem witness_fillAndTrap :
    (PortOpen (withLive ready [{ entry 0x400 8 (.fill 7) with hits := 16777214 }])
      ∧ CountsInRange (withLive ready [{ entry 0x400 8 (.fill 7) with hits := 16777214 }]).tables
      ∧ ∀ n < fetchWords .eight, resolve (withLive ready [{ entry 0x400 8 (.fill 7) with hits := 16777214 }]).tables.live.entries
          (alignAddress 0x400 .eight + BitVec.ofNat 19 n) .code = .fill 7 0)
      ∧ (PortOpen (withLive ready [entry 0x400 8 (.trap 7)]) ∧ ready.log.records.length + fetchWords .eight ≤ 16
          ∧ ∀ n < fetchWords .eight, resolve (withLive ready [entry 0x400 8 (.trap 7)]).tables.live.entries
              (alignAddress 0x400 .eight + BitVec.ofNat 19 n) .code = .trap 7 0) := by
  decide +kernel

/-- A request of two words in progress against a table, with `left` of them to handle. -/
def inRequest (es : List Entry) (left : Nat) : State :=
  let s := withLive ready es
  { s with fetch := { s.fetch with request := some { acceptedRequest s (reading .two) with left := left } } }

/-- Each resolution of a word to be served, in the first and in the last word of a request; a filled word and a trapped one
in one request. -/
theorem witness_served :
    ready.fetch.request = none
      ∧ (∀ es, (inRequest es 2).fetch.request = some (acceptedRequest (withLive ready es) (reading .two)))
      ∧ ((acceptedRequest ready (reading .two)).left = fetchWords .two ∧ 1 ≤ (acceptedRequest ready (reading .one)).left)
      ∧ CountsInRange (inRequest [entry 0x400 1 (.fill 7), entry 0x401 1 (.trap 8)] 2).tables
      ∧ resolve [entry 0x400 1 (.fill 7), entry 0x401 1 (.trap 8)] 0x400 .code = .fill 7 0
      ∧ resolve [entry 0x400 1 (.fill 7), entry 0x401 1 (.trap 8)] 0x401 .code = .trap 8 1
      ∧ resolve [entry 0x400 1 (.replace 0 5)] 0x400 .code = .replace 0 5 0
      ∧ resolve [entry 0x400 1 .count] 0x400 .code = .countOnly 0 ∧ resolve [] 0x400 .code = .passthrough :=
  ⟨rfl, fun _ => rfl, by decide, by decide, by decide, by decide, by decide, by decide, by decide⟩

theorem test_serve_mixedWords :
    (inRequest [entry 0x400 1 (.fill 7), entry 0x401 1 (.trap 8)] 2).served.fetch.beats
        = [{ address := 0x400, data := some 7 }, { address := 0x401, data := some 8 }]
      ∧ (inRequest [entry 0x400 1 (.fill 7)] 2).served.fetch.romAddress = 0x401 := by decide +kernel

theorem witness_romRead :
    (romRead ready .one).fetch.romCycle = .read
      ∧ (romRead ready .one).fetch.request = some (acceptedRequest ready (reading .one))
      ∧ (acceptedRequest ready (reading .one)).left = 1
      ∧ CountsInRange (romRead ready .one).tables
      ∧ 2 ≤ (acceptedRequest ready (reading .two)).left
      ∧ (acceptedRequest ready (reading .two)).left ≤ fetchWords .two
      ∧ resolve (romRead ready .two).tables.live.entries 0x400 .code = .passthrough
      ∧ resolve (romRead ready .two).tables.live.entries 0x401 .code = .passthrough
      ∧ resolve (withLive ready [entry 0x400 2 .count]).tables.live.entries 0x401 .code = .countOnly 0
      ∧ resolve (withLive ready [entry 0x401 1 (.replace 0 5)]).tables.live.entries 0x401 .code = .replace 0 5 0
      ∧ resolve (withLive ready [entry 0x401 1 (.trap 5)]).tables.live.entries 0x401 .code = .trap 5 0
      ∧ ready.fetch.romCycle ≠ .read := by decide +kernel

/-- A fetch read of segment 1 is being served for the first word of a request under a table, while a CRC read waits. -/
def replacingWith (l : FetchLength) (es : List Entry) : State :=
  let s := withSeg (withLive ready es) 0 (sealed 1)
  { s with
    fetch := { s.fetch with request := some (acceptedRequest s (reading l)) }
    mem := { s.mem with arbiter :=
      { serving := some (.fetchRead { handle := 0, offset := 5 }), fetchWaits := none, dataWaits := false
        crcWaits := true } } }

/-- The only word of its request. -/
def replacing : State := replacingWith .one [entry 0x400 1 (.replace 0 5)]

/-- The same with no CRC read waiting. -/
def alone (s : State) : State :=
  { s with mem := { s.mem with arbiter := { s.mem.arbiter with crcWaits := false } } }

/-- The fetch read waits behind a data-port access that has the port. -/
def behindData (s : State) : State := onPort s .dataAccess (some { handle := 0, offset := 5 }) false false

theorem witness_fetchRead :
    replacing.mem.arbiter.serving = some (.fetchRead { handle := 0, offset := 5 })
      ∧ replacing.fetch.request = some (acceptedRequest replacing (reading .one))
      ∧ (replacing.segment 0).run = some run2 ∧ CountsInRange replacing.tables
      ∧ resolve replacing.tables.live.entries 0x400 .code = .replace 0 5 0
      ∧ (acceptedRequest replacing (reading .two)).left = 2
      ∧ (∀ es, (replacingWith .two es).fetch.request.isSome = true)
      ∧ resolve (replacingWith .two [entry 0x400 2 (.replace 0 5)]).tables.live.entries 0x401 .code = .replace 0 6 0
      ∧ resolve (replacingWith .two [entry 0x400 1 (.replace 0 5)]).tables.live.entries 0x401 .code = .passthrough
      ∧ (replacing.mem.arbiter.fetchWaits = none ∧ replacing.mem.arbiter.crcWaits = true)
      ∧ (alone (replacingWith .two [entry 0x400 2 (.replace 0 5)])).mem.arbiter.crcWaits = false
      ∧ (behindData replacing).mem.arbiter.idled.serving = some (.fetchRead { handle := 0, offset := 5 })
      ∧ (after .trstAssert replacing).mem.arbiter.serving = some .discarded
      ∧ ready.mem.arbiter.idled.serving = none
      ∧ (onPort ready .dataAccess none false true).mem.arbiter.idled.serving = some .crcRead :=
  ⟨rfl, rfl, by decide +kernel, by decide +kernel, by decide +kernel, rfl, fun _ => rfl,
    by decide +kernel, by decide +kernel, by decide +kernel, by decide +kernel, by decide, by decide +kernel, rfl, by decide⟩

/-- A REPLACE table of two words, whose first fetch read is being served. -/
def replacingTwo (d c : Bool) : State :=
  onPort (replacingWith .two [entry 0x400 2 (.replace 0 5)]) (.fetchRead { handle := 0, offset := 5 }) none d c

/-- R65: the CRC read that waits for the port is granted as the fetch read ends, ahead of the request's next word. -/
theorem test_fetchRead_waitingCrcFirst :
    (after .fetchRamReadDone (replacingTwo false true)).mem.arbiter
        = { serving := some .crcRead, fetchWaits := some { handle := 0, offset := 6 }, dataWaits := false, crcWaits := false }
      ∧ (after .fetchRamReadDone (replacingTwo false false)).mem.arbiter
        = { serving := some (.fetchRead { handle := 0, offset := 6 }), fetchWaits := none, dataWaits := false
            crcWaits := false }
      ∧ (after .fetchRamReadDone replacing).mem.arbiter.serving = some .crcRead := by decide +kernel

/-- R65: where a data-port access waits too it has the port first, and the request's next word then goes ahead of the CRC
read, which is passed over again. -/
theorem test_fetchRead_waitingDataFirst :
    (after .fetchRamReadDone (replacingTwo true true)).mem.arbiter
        = { serving := some .dataAccess, fetchWaits := some { handle := 0, offset := 6 }, dataWaits := false, crcWaits := true }
      ∧ (after .fetchRamReadDone (replacingTwo true true)).mem.arbiter.dataEnded.serving
        = some (.fetchRead { handle := 0, offset := 6 })
      ∧ (after .fetchRamReadDone (after .fetchRamReadDone (replacingTwo true true))).mem.arbiter.serving = some .crcRead
      ∧ (after .crcWordRead (after .fetchRamReadDone (replacingTwo true true))).mem.arbiter.crcWaits = true := by
  decide +kernel

/-- A log of `n` records whose oldest number is `first`, in a given state. -/
def loggedIn (s : State) (n : Nat) (first next : BitVec 16) : State :=
  { s with log :=
    { records := (List.range n).map fun i =>
        { sequence := first + BitVec.ofNat 16 i, address := 0, entryIndex := 0, generation := 1, body := .shadow 5 }
      nextSequence := next } }

def logged (n : Nat) (first next : BitVec 16) : State := loggedIn ready n first next

theorem witness_romWrite :
    (romWrite ready 1).fetch.romCycle = .write 9 ∧ (romWrite ready 1).fetch.request.isSome = true
      ∧ (romWrite ready 2).fetch.request.isSome = true
      ∧ shadowIndex ready.tables.live.entries 0x401 = none
      ∧ shadowIndex (withLive ready [entry 0x400 2 (.fill 1)]).tables.live.entries 0x401 = some 0
      ∧ ready.log.records.length < 16 ∧ ready.fetch.romCycle = .none
      ∧ (logged 16 1 17).log.records.length = 16
      ∧ (logged 16 1 17).log.records.head?.map (·.sequence) = some 1
      ∧ shadowIndex (loggedIn (withLive ready [entry 0x400 2 (.fill 1)]) 16 1 17).tables.live.entries 0x401 = some 0 := by
  decide +kernel

/-- A shadowed word with sixteen records held is dropped: OVERFLOW, and the counter moves on unless it has lapped. -/
theorem test_romWrite_dropped :
    (let t := after (.romWriteDone 0) (romWrite (loggedIn (withLive ready [entry 0x400 2 (.fill 1)]) 16 1 17) 1);
      (t.log.records.length, t.log.nextSequence, t.irq.pending) = (16, 18, 0b0000010))
      ∧ (let t := after (.romWriteDone 0) (romWrite (loggedIn (withLive ready [entry 0x400 2 (.fill 1)]) 16 1 1) 1);
      (t.log.records.length, t.log.nextSequence) = (16, 1)) := by decide +kernel

/-- An end by a ROM read cycle: of a word that passes through, in any state of these. -/
theorem witness_endsWith_romRead (s : State) (h : resolve s.tables.live.entries 0x400 .code = .passthrough) (rd : Word) :
    EndsWith (romRead s .one) (.romReadDone rd)
      (State.served { romRead s .one with
        fetch := { wordMarked (romRead s .one).fetch (acceptedRequest s (reading .one)) (some rd) with romCycle := .none } }) :=
  ⟨_, rfl, Nat.le_refl 1, Or.inl ⟨rd, rfl, rfl, Or.inl ⟨h, rfl⟩⟩⟩

/-- An end by a ROM read cycle of a counted word. -/
theorem witness_endsWith_counted :
    EndsWith lastCounted (.romReadDone 3) (State.served { lastCounted with
      fetch := { wordMarked lastCounted.fetch
          (acceptedRequest (withLive ready [entry 0x400 1 .count]) (reading .one)) (some 3) with romCycle := .none }
      tables := hitsAt lastCounted.tables 0 1 }) :=
  ⟨_, rfl, by decide, Or.inl ⟨3, rfl, rfl, Or.inr ⟨0, by decide, rfl⟩⟩⟩

/-- An end by a ROM write cycle. -/
theorem witness_endsWith_romWrite (s : State) (fd : Word) :
    ∃ t, EndsWith (romWrite s 1) (.romWriteDone fd) t ∧ t.fetch.request = none :=
  ⟨_, ⟨_, rfl, Nat.le_refl 1, Or.inr (Or.inl ⟨9, fd, rfl, rfl, rfl, rfl⟩)⟩, rfl⟩

/-- An end by a fetch read of patch RAM. -/
theorem witness_endsWith_fetchRead : ∃ t, EndsWith replacing .fetchRamReadDone t ∧ t.fetch.request = none :=
  ⟨_, ⟨_, rfl, by decide, Or.inr (Or.inr ⟨_, run2, 0, rfl, rfl, by decide +kernel, by decide +kernel, rfl⟩)⟩,
    by decide +kernel⟩

theorem witness_fetchIdle :
    (CountsInRange (romRead ready .one).tables ∧ lastCounted.fetch.standing = none
        ∧ (after (.romReadDone 3) lastCounted).gen.state = pendingNow)
      ∧ ((after (.romReadDone 3) (standing (romRead ready .one) writing)).fetch.standing = some writing
        ∧ (after (.romReadDone 3) (standing (romRead ready .one) writing)).fetch.request = none
        ∧ (standing ready writing).pins.trst = false ∧ (standing ready writing).gen.state = .steady)
      ∧ ((standing (inGen ready pendingAt) (reading .four)).fetch.request = none
        ∧ (standing (inGen ready pendingAt) (reading .four)).gen.state = pendingAt ∧ (reading .four).meets 0x400 = true
        ∧ (standing (inGen ready pendingAt) (reading .four)).pins.trst = false
        ∧ (after .fetchAccept (standing (inGen ready pendingAt) (reading .four))).gen.state = .probation)
      ∧ ((standing (inGen ready pendingNow) writing).fetch.request = none
        ∧ (standing (inGen ready pendingNow) writing).fetch.standing = some writing
        ∧ (standing (inGen ready pendingNow) writing).gen.state = pendingNow)
      ∧ ((standing (inGen (withPrior ready) (.revertWaiting .manual)) writing).gen.state = .revertWaiting .manual
        ∧ (withPrior ready).tables.prior.isSome = true) := by decide +kernel

theorem witness_fetchIdle_noSwitch : NoSwitchAt (standing ready writing) writing := noSwitch_steady rfl

/-- One segment owns every granule. -/
def packed : State := withSeg ready 0 (.opened { first := 0, count := 512 })

theorem witness_noRun (g : Nat) : ¬ RunIsFree packed g 1 := by
  intro h
  have h0 := h.2 0 (by decide) 0
  have hg : g < 512 := h.1
  have : (packed.segment 0).owns (g + 0) = true := by
    have hs : packed.segment 0 = .opened { first := 0, count := 512 } := setSegment_segment ready 0 _
    rw [hs]
    simp [Segment.owns, Segment.run]
    omega
  rw [this] at h0
  cases h0

/-- Every handle is taken. -/
def crowded : State :=
  { ready with mem := { ready.mem with segments := Vector.ofFn fun h => .opened { first := h.val, count := 1 } } }

theorem witness_alloc :
    (Ready (given ready [0, 0]) ∧ param2 (given ready [0, 0]) 0 1 = 0)
      ∧ (Ready (given ready [1, 2]) ∧ 512 < param2 (given ready [1, 2]) 0 1)
      ∧ (∀ h, crowded.segment h ≠ .free)
      ∧ (packed.segment 1 = .free ∧ ∀ j < 1, packed.segment j ≠ .free)
      ∧ (param2 (given ready [0, 2]) 0 1 = 512 ∧ ready.segment 0 = .free)
      ∧ (RunIsFree examplePool 4 3 ∧ ∀ g' < 4, ¬ RunIsFree examplePool g' 3) := by decide +kernel

theorem witness_handles :
    (Ready (given ready [0]) ∧ param1 (given ready [0]) 0 = 0 ∧ 48 < param1 (given ready [49]) 0)
      ∧ (param1 (given ready [48]) 0 = (47 : Handle).val + 1 ∧ (given ready [48]).segment 47 = .free)
      ∧ ((withSeg ready 0 (sealed 1)).segment 0).run = some run2
      ∧ param2 (given ready [1, 63, 0]) 1 2 < 32 * run2.count ∧ 32 * run2.count ≤ param2 (given ready [1, 64, 0]) 1 2 := by
  decide +kernel

theorem witness_seal :
    (Ready (given (withSeg ready 0 (.opened run2)) [1, 64, 0]) ∧ param1 (given ready [1]) 0 = (0 : Handle).val + 1)
      ∧ ((withSeg ready 0 (.opened run2)).segment 0 = .opened run2 ∧ param2 (given ready [1, 64, 0]) 1 2 ≤ 32 * run2.count)
      ∧ (param2 (given ready [1, 0, 0]) 1 2 = 0 ∧ 32 * run2.count < param2 (given ready [1, 65, 0]) 1 2)
      ∧ (withSeg ready 0 (sealed 0)).segment 0 = sealed 0 := by decide +kernel

theorem witness_crcReads :
    ((sealing false 0 1).mem.arbiter.serving = some .crcRead ∧ (sealing false 0 1).mem.crcJob.isSome = true
        ∧ ((sealing false 0 1).segment 0).run = some run2 ∧ ready.mem.arbiter.idled.serving ≠ some .crcRead)
      ∧ (sealing false 0 1).mem.arbiter.idled.serving = some .crcRead
      ∧ (onPort (sealing false 0 1) .dataAccess none false true).mem.arbiter.idled.serving = some .crcRead
      ∧ (sealing false 1 1).segment 0 = .sealing run2 2
      ∧ ((sealing false 1 1).mem.crcJob.map fun j => (j.forLoader, j.offset + 1)) = some (false, 2) := by decide +kernel

theorem witness_unsealAndFree :
    (Ready (given (withSeg ready 0 (sealed 0)) [1]) ∧ (withSeg ready 0 (sealed 0)).segment 0 = sealed 0)
      ∧ (withSeg ready 0 (sealed 2)).segment 0 = sealed 2
      ∧ (withSeg ready 0 (.opened run2)).segment 0 = .opened run2
      ∧ (withSeg ready 0 (.sealing run2 3)).segment 0 = .sealing run2 3
      ∧ (withSeg ready 0 (.condemned run2 ⟨1, 0, 1⟩)).segment 0 = .condemned run2 ⟨1, 0, 1⟩ := by decide +kernel

theorem witness_info :
    Ready (given packed [1]) ∧ param1 (given packed [1]) 0 = (0 : Handle).val + 1
      ∧ (∃ g, RunIsFree (given packed [1]) g 0) ∧ (∀ g m, RunIsFree (given packed [1]) g m → m ≤ 0)
      ∧ ((given packed [1]).segment 0).run = some { first := 0, count := 512 } ∧ (packed.segment 1).run = none := by
  refine ⟨by decide +kernel, by decide +kernel, ⟨0, by decide, by decide⟩, ?_, by decide +kernel, by decide +kernel⟩
  intro g m h
  by_contra hm
  exact witness_noRun g ⟨by have := h.1; simp only [Config.granules] at this ⊢; omega,
    fun i hi k => h.2 i (by omega) k⟩

/-- The data pointer on segment 1 in a given state, at an offset. -/
def pointed (g : Segment) (offset : Nat) : State :=
  let s := withSeg ready 0 g
  { s with mem := { s.mem with pointer := some { handle := 0, offset := offset } } }

theorem witness_dataPort :
    (MemoryForm (pointed (.opened run2) 63) ∧ (pointed (.opened run2) 63).loader.state ≠ .running
        ∧ (pointed (.opened run2) 63).segment 0 = .opened run2 ∧ 63 < 32 * run2.count)
      ∧ State.reset.loader.state = .running ∧ ready.mem.pointer = none
      ∧ (∀ r, (pointed (sealed 1) 0).segment 0 ≠ .opened r)
      ∧ ((pointed (.opened run2) 64).segment 0 = .opened run2 ∧ 32 * run2.count ≤ 64)
      ∧ (((pointed (sealed 1) 63).segment 0).run = some run2 ∧ ((pointed (sealed 1) 64).segment 0).run = some run2)
      ∧ ({ ready with mem := { ready.mem with readLatch := some 5 } }).mem.readLatch = some 5 := by
  refine ⟨by decide +kernel, by decide, by decide, ?_, by decide +kernel, by decide +kernel, rfl⟩
  intro r
  rw [show (pointed (sealed 1) 0).segment 0 = sealed 1 from setSegment_segment ready 0 _]
  exact Segment.noConfusion

/-- LIVE under number 3, which the counter has reached. -/
def inNumber3 (es : List Entry) : State :=
  { withLive ready es with gen := { ready.gen with counter := 3 } }

/-- R65: a word written behind a fetch read being served waits for the port, and the next window access finds it ended once
it has been granted. -/
theorem test_dataPort_waitsForThePort :
    (let s := onPort (pointed (.opened run2) 0) (.fetchRead { handle := 0, offset := 5 }) none false false;
      (after (.dataHiWrite 1) s).mem.arbiter.dataWaits = true
        ∧ (after (.dataHiWrite 1) ready).mem.arbiter = ready.mem.arbiter)
      ∧ (after (.dataHiWrite 1) (pointed (.opened run2) 0)).mem.arbiter.serving = some .dataAccess
      ∧ (after (.dataLoWrite 1) (after (.dataHiWrite 1) (pointed (.opened run2) 0))).mem.arbiter.serving = none
      ∧ (match step (after (.dataHiWrite 1) (pointed (.opened run2) 0)) with
        | .next t => (t.mem.arbiter.serving, t.divider)
        | _ => (none, 5)) = (none, 0) := by decide +kernel

theorem witness_sealedWords :
    ((withSeg ready 0 (sealed 0)).segment 0).run = some run2 ∧ 63 < 32 * run2.count
      ∧ exec .trstRelease (withSeg ready 0 (sealed 0)) = .next (withSeg ready 0 (sealed 0)) :=
  ⟨by decide +kernel, by decide, rfl⟩

theorem witness_sealedWords_notOpen (r : Run) : (withSeg ready 0 (sealed 0)).segment 0 ≠ .opened r := by
  rw [show (withSeg ready 0 (sealed 0)).segment 0 = sealed 0 from setSegment_segment ready 0 _]
  exact Segment.noConfusion

/-- The forms hold in a state with a SEALED segment, unnamed and named by an entry of LIVE. -/
theorem witness_sealedWords_inv : Inv (withSeg ready 0 (sealed 0)) := by
  refine ⟨?_, ?_, ?_, ?_, ?_, ?_, ?_, ?_, ?_, ?_, ?_, ?_, ?_, ?_, ?_, ?_, ?_, ?_, ?_, ?_, ?_, ?_, ?_, ?_, ?_, ?_, ?_, ?_,
    ?_⟩
    <;> decide +kernel

theorem witness_sealedWords_invNamed : Inv (withSeg (inNumber3 [entry 0x400 2 (.replace 0 46)]) 0 (sealed 1)) := by
  refine ⟨?_, ?_, ?_, ?_, ?_, ?_, ?_, ?_, ?_, ?_, ?_, ?_, ?_, ?_, ?_, ?_, ?_, ?_, ?_, ?_, ?_, ?_, ?_, ?_, ?_, ?_, ?_, ?_,
    ?_⟩
    <;> decide +kernel

/-- The parameters of an insert: base 00400h, length 2, a kind, applies ANY, segment 1, offset 0, value 1234h. -/
def asks (s : State) (kind : Byte) : State := given s [0, 4, 0, 2, 0, kind, 3, 1, 0, 0, 0x34, 0x12]

theorem witness_noEntryAsked (e : Entry) : ¬ EntryAsked (asks ready 0) e := by
  rintro ⟨_, _, _, _, _, _, _, h⟩
  have h0 : param1 (asks ready 0) 5 = 0 := by decide
  cases hb : e.body <;> rw [hb] at h <;> dsimp only at h <;> omega

theorem witness_insertChecks :
    Ready (asks ready 2) ∧ (asks { ready with tables := { ready.tables with stagedLock := true } } 2).tables.stagedLock = true
      ∧ (asks ready 2).tables.stagedLock = false
      ∧ (withSeg ready 0 (.sealed run2 ⟨1, 0, 0⟩)).segment 0 = .sealed run2 ⟨1, 0, 0⟩
      ∧ ((List.replicate 32 (entry 0x10 1 .count)).length ≥ 32)
      ∧ SharesAddress (entry 0x400 2 .count) (entry 0x401 1 .count)
      ∧ ¬ SharesAddress (entry 0x400 2 .count) (entry 0x402 1 .count) := by decide +kernel

theorem witness_entryAsked :
    EntryAsked (asks ready 1) (entry 0x400 2 (.replace 0 0)) ∧ EntryAsked (asks ready 2) (entry 0x400 2 (.fill 0x1234))
      ∧ EntryAsked (asks ready 3) (entry 0x400 2 (.trap 0x1234)) ∧ EntryAsked (asks ready 4) (entry 0x400 2 .count) := by
  refine ⟨⟨?_, ?_, ?_, ?_, ?_, ?_, ?_, ⟨?_, ?_, ?_, ?_⟩⟩, ⟨?_, ?_, ?_, ?_, ?_, ?_, ?_, ⟨?_, ?_⟩⟩,
    ⟨?_, ?_, ?_, ?_, ?_, ?_, ?_, ⟨?_, ?_⟩⟩, ⟨?_, ?_, ?_, ?_, ?_, ?_, ?_, (?_ : param1 (asks ready 4) 5 = 4)⟩⟩
    <;> decide +kernel

theorem segmentReady_count (s : State) (e : Entry) (h : e.body = .count) : SegmentReady s e := by
  intro k o hb
  rw [h] at hb
  cases hb

theorem segmentReady_sealed :
    SegmentReady (asks (withSeg ready 0 (sealed 0)) 1) (entry 0x400 2 (.replace 0 46)) := by
  intro k o hb
  cases hb
  exact ⟨run2, _, setSegment_segment ready 0 (sealed 0), by decide⟩

theorem witness_remove :
    (Ready (given ready [0, 0, 8]) ∧ 0x80000 ≤ param3 (given ready [0, 0, 8]) 0 1 2)
      ∧ (param3 (given ready [0xFF, 0xFF, 7]) 0 1 2 < 0x80000
        ∧ ∀ e ∈ (withStaged ready [entry 0x3FF 2 .count]).tables.staged, e.base.toNat ≠ param3 (given ready [0, 4, 0]) 0 1 2)
      ∧ (TableForm (withStaged ready [entry 0x400 2 (.replace 0 0)]).tables.staged
        ∧ (entry 0x400 2 (.replace 0 0)).base.toNat = param3 (given ready [0, 4, 0]) 0 1 2) := by decide +kernel

theorem witness_clearAndCopy :
    Ready ready ∧ ready.tables.stagedLock = false
      ∧ ({ ready with tables := { ready.tables with stagedLock := true } }).tables.stagedLock = true := by decide

theorem witness_tableRead :
    Unheld (given State.reset [3]) ∧ 2 < param1 (given State.reset [3]) 0
      ∧ (param1 (given ready [0]) 0 = 0 ∧ param1 (given ready [1]) 0 = 1 ∧ param1 (given ready [2]) 0 = 2)
      ∧ (withLive ready [entry 0x400 2 .count]).tables.live.entries.length ≤ param1 (given ready [1, 1]) 1
      ∧ (withLive ready [entry 0x400 2 .count]).tables.live.entries[param1 (given ready [1, 0]) 1]?
          = some (entry 0x400 2 .count) := by decide +kernel

theorem witness_countClear :
    Ready ready ∧ param1 (given ready [0]) 0 = 0 ∧ param1 (given ready [1]) 0 = 1 ∧ 2 ≤ param1 (given ready [2]) 0 := by
  decide

theorem witness_noCommitAsked (c : PendingCommit) : ¬ CommitAsked (given ready [0]) c := by
  rintro ⟨_, _, h⟩
  have h0 : param1 (given ready [0]) 0 = 0 := by decide
  cases hm : c.mode <;> rw [hm] at h <;> dsimp only at h <;> omega

theorem witness_commit :
    (Ready (given ready [1]) ∧ ready.gen.state = .steady
        ∧ CommitAsked (given ready [1]) { mode := .now, probation := 0, tolerance := 0 })
      ∧ CommitAsked (given ready [2, 0xFF, 0xFF, 7, 0xFF, 0xFF, 7])
          { mode := .atAddress 0x7FFFF, probation := 0xFFFF, tolerance := 7 }
      ∧ CommitAsked (given ready [3]) { mode := .atTargetReset, probation := 0, tolerance := 0 }
      ∧ NoAcceptance ready ∧ ¬ NoAcceptance (standing ready writing) ∧ ready.fetch.request = none
      ∧ (romRead ready .one).fetch.request.isSome = true
      ∧ (inGen ready pendingNow).gen.state = pendingNow ∧ (inGen ready .probation).gen.state = .probation
      ∧ (inGen ready (.revertWaiting .expiry)).gen.state = .revertWaiting .expiry := by decide +kernel

theorem witness_movements :
    ((inGen ready pendingNow).gen.state = pendingNow ∧ (inGen ready pendingNow).fetch.request = none
        ∧ (inGen ready pendingNow).fetch.standing = none)
      ∧ (romRead (inGen ready pendingNow) .one).fetch.request.isSome = true
      ∧ (inGen (withPrior ready) (.revertWaiting .manual)).tables.prior.isSome = true
      ∧ (inGen (withPrior ready) (.revertWaiting .resets)).gen.state = .revertWaiting .resets := by decide

theorem witness_noCommitPending (c : PendingCommit) : ready.gen.state ≠ .commitPending c := GenState.noConfusion
theorem witness_noRevertWaiting (o : RevertOrigin) : ready.gen.state ≠ .revertWaiting o := GenState.noConfusion

theorem witness_abort :
    (Ready (inGen ready pendingNow) ∧ NoAcceptance (inGen ready pendingNow))
      ∧ (Ready (standing (inGen ready pendingNow) writing)
        ∧ (standing (inGen ready pendingNow) writing).fetch.standing = some writing
        ∧ (standing (inGen ready pendingNow) writing).fetch.request = none)
      ∧ (Ready (standing (inGen ready pendingNow) (reading .four))
        ∧ (standing (inGen ready pendingNow) (reading .four)).fetch.standing = some (reading .four)
        ∧ (standing (inGen ready pendingNow) (reading .four)).pins.trst = false)
      ∧ ready.gen.state = .steady ∧ (inGen ready .probation).gen.state = .probation
      ∧ (inGen ready (.revertWaiting .expiry)).gen.state = .revertWaiting .expiry := by decide

theorem witness_revert :
    (Ready ready ∧ ready.tables.prior = none) ∧ (Ready (withPrior ready) ∧ (withPrior ready).tables.prior.isSome = true)
      ∧ (withPrior ready).gen.state = .steady ∧ (onTrial 1 5).gen.state = .probation ∧ Ready (onTrial 1 5)
      ∧ (romRead (withPrior ready) .one).fetch.request.isSome = true ∧ NoAcceptance (withPrior ready)
      ∧ ¬ NoAcceptance (standing (withPrior ready) writing) := by decide

theorem witness_confirm :
    Ready (onTrial 1 5) ∧ ready.gen.state ≠ .probation ∧ ready.gen.lastOutcome ≠ .expiredReverted
      ∧ ready.gen.lastOutcome ≠ .resetsReverted
      ∧ ({ ready with gen := { ready.gen with lastOutcome := .expiredReverted } }).gen.lastOutcome = .expiredReverted
      ∧ ({ ready with gen := { ready.gen with lastOutcome := .resetsReverted } }).gen.lastOutcome = .resetsReverted := by
  decide

theorem witness_status :
    Unheld State.reset ∧ (inGen ready (.revertWaiting .resets)).gen.state = .revertWaiting .resets
      ∧ (inGen ready pendingAt).gen.state = pendingAt ∧ (withPrior ready).tables.prior.isSome = true
      ∧ ready.tables.prior = none ∧ ready.loader.outcome.committed = none
      ∧ (after .loaderRunEnd (running .switchWait (some .a))).loader.outcome.committed = some 1 := by decide

theorem witness_tick :
    (ready.gen.state ≠ .probation ∧ (targetHeld (standing ready writing)).gen.state ≠ .probation
        ∧ (standing (inGen ready pendingNow) writing).gen.state ≠ .probation)
      ∧ ((onTrial 1 2).gen.timer.toNat = 2 ∧ NoAcceptance (onTrial 1 1) ∧ ¬ NoAcceptance (standing (onTrial 1 1) writing))
      ∧ (onTrial 1 1).gen.timer = 1 ∧ (romRead (onTrial 1 1) .one).fetch.request.isSome = true
      ∧ (onTrial 1 1).tables.prior.isSome = true ∧ (onTrial 1 2).gen.timer ≠ 1 := by decide

theorem witness_log :
    (logged 15 1 16).log.records.length < 16
      ∧ ((logged 16 1 17).log.records.length = 16 ∧ (logged 16 1 1).log.records.length = 16)
      ∧ (Ready ready ∧ ready.log.records = []) ∧ (logged 16 1 17).log.records ≠ []
      ∧ (Unheld State.reset ∧ State.reset.loader.state = .running)
      ∧ ((busyWith .segSeal).pins.xrst = false ∧ (busyWith .segSeal).cmd.busy.isSome = true) := by decide +kernel

theorem witness_rows :
    commandRows.length = 20 ∧ namesCommand 0xFF = false ∧ (Instr.segAlloc, (0x10 : Byte)) ∈ commandRows
      ∧ (∀ p ∈ commandRows, namesCommand p.2 = true) ∧ windowWrite 0x00 0x10 = .segAlloc := by decide +kernel

theorem witness_causes :
    ready.pins.xrst = false
      ∧ holdsCause ({ ready with irq := { pending := 0b1000000, enable := 0b1000001 } }).irq.pending .refused = true
      ∧ holdsCause ({ ready with irq := { pending := 0b1000000, enable := 0b1000001 } }).irq.enable .refused = true := by
  decide

theorem witness_windowOffsets : 7 ≤ (7 : BitVec 5).toNat ∧ (15 : BitVec 5).toNat ≤ 15 := by decide

/-- In the body of slot B, with its transaction. -/
def inSlotB (bodyRead : Nat) : State :=
  let s := atBody (headerWith 2 14 0)
  { s with loader := { s.loader with slot := some .b, transaction := some 0x010000, bodyRead := bodyRead } }

theorem witness_run :
    ((running .zeroFill none).loader.state = .running ∧ (running .zeroFill none).loader.lden = true
        ∧ State.reset.loader.lden = false ∧ State.reset.loader.phase = .zeroFill)
      ∧ (running .switchWait (some .b)).loader.phase = .switchWait
      ∧ (inGen (running .switchWait (some .b)) pendingNow).gen.state = pendingNow
      ∧ ready.loader.state ≠ .running ∧ (running .records (some .a)).loader.phase ≠ .switchWait
      ∧ (running .header (some .a)).loader.phase ≠ .zeroFill
      ∧ (holdoutAsserted State.reset = true ∧ holdoutAsserted ready = false ∧ holdoutAsserted (inReset ready) = true)
      ∧ (ready.loader.transaction = none ∧ (after .zeroFillEnd (running .zeroFill none)).loader.header = none)
      ∧ ((inSlotB 0).loader.transaction = some 0x010000 ∧ (inSlotB 0).loader.header.isSome = true) := by decide +kernel

/-- R163: the header is good, and each field stands at the edge of its range. -/
theorem witness_header :
    header[0] = 0x36 ∧ header[1] = 0x4F
      ∧ crc16 [header[0], header[1], header[2], header[3], header[4], header[5], header[6], header[7], header[8], header[9],
          header[10], header[11], header[12], header[13]] = header[15] ++ header[14]
      ∧ header[2] = 1 ∧ header[4].toNat ≤ 7 ∧ 1 ≤ header[7].toNat ∧ header[7].toNat ≤ 96
      ∧ 1 ≤ header[8].toNat + 256 * header[9].toNat ∧ header[8].toNat + 256 * header[9].toNat ≤ 65520
      ∧ header[5].toNat + 256 * header[6].toNat ≠ 0 ∧ (header.set 2 2)[2] ≠ 1 ∧ (header.set 0 0)[0] ≠ 0x36
      ∧ (running .header (some .b)).loader.slot = some .b := by decide +kernel

theorem witness_atRecord :
    AtRecord (atBody (headerWith 1 6 0)) .a (headerWith 1 6 0) ∧ AtRecord (atBody (headerWith 1 0 0)) .a (headerWith 1 0 0)
      ∧ (0x04 : Byte) ∉ [(1 : Byte), 2, 3] ∧ (headerWith 1 6 0).bodyLength.toNat - 0 < 7
      ∧ (headerWith 1 12 0).bodyLength.toNat - 0 < 13 ∧ (headerWith 1 0 0).bodyLength.toNat - 0 < 1 := by decide +kernel

theorem witness_segmentRecord :
    AtRecord (atBody (headerWith 2 8 0)) .a (headerWith 2 8 0)
      ∧ ((headerWith 2 8 0).bodyLength.toNat - 0 < 7 + 2 * (1 : Word).toNat)
      ∧ (7 + 2 * (16384 : Word).toNat ≤ (headerWith 2 65520 0).bodyLength.toNat ∧ (16384 : Word).toNat ≤ 16384)
      ∧ (RunIsFree (atBody (headerWith 2 9 0)) 0 1 ∧ (atBody (headerWith 2 9 0)).segment 0 = .free) := by decide +kernel

/-- The loader writes a segment of two words, of which some are written. -/
def writingSegment (written : Nat) : State :=
  let s := withSeg (atBody (headerWith 2 12 0)) 0 (.opened run2)
  { s with loader := { s.loader with current := some { handle := 0, length := 2, expected := 0, written := written } } }

theorem witness_segmentWords :
    (MemoryForm (writingSegment 0) ∧ (writingSegment 0).loader.phase = .records
        ∧ (writingSegment 0).segment 0 = .opened run2 ∧ (0 + 1 < 2) ∧ (writingSegment 1).segment 0 = .opened run2)
      ∧ ((sealing true 1 0x2144DF1C).mem.crcJob.map fun j => (j.forLoader, j.offset + 1, j.length)) = some (true, 2, 2)
      ∧ (sealing true 1 0).mem.arbiter.idled.serving = some .crcRead ∧ (sealing true 1 0).segment 0 = .sealing run2 2
      ∧ ({ sealing true 1 0 with loader := (running .sealWait (some .a)).loader }).loader.slot = some .a := by
  decide +kernel

theorem witness_entryRecord :
    AtRecord (atBody (headerWith 2 13 0)) .a (headerWith 2 13 0) ∧ (headerWith 2 13 0).bodyLength.toNat = 0 + 13 := by
  decide +kernel

theorem witness_recordAsks :
    RecordAsks [0] 0x400 2 1 3 0 46 0 (entry 0x400 2 (.replace 0 46)) ∧ RecordAsks [] 0x400 2 2 3 0 0 7 (entry 0x400 2 (.fill 7))
      ∧ RecordAsks [] 0x400 2 3 3 0 0 7 (entry 0x400 2 (.trap 7)) ∧ RecordAsks [] 0x400 2 4 3 0 0 7 (entry 0x400 2 .count) := by
  refine ⟨⟨?_, ?_, ?_, ?_, ?_, ?_, ?_, ⟨?_, ?_, ?_, ?_⟩⟩, ⟨?_, ?_, ?_, ?_, ?_, ?_, ?_, ⟨?_, ?_⟩⟩,
    ⟨?_, ?_, ?_, ?_, ?_, ?_, ?_, ⟨?_, ?_⟩⟩, ⟨?_, ?_, ?_, ?_, ?_, ?_, ?_, (?_ : (4 : Byte) = 4)⟩⟩ <;> decide +kernel

theorem witness_noRecordAsked (e : Entry) : ¬ RecordAsks [] 0x400 2 1 3 0 0 0 e := by
  rintro ⟨_, _, _, _, _, _, _, h⟩
  cases hb : e.body <;> simp [hb] at h

theorem witness_endRecord :
    (AtRecord (atBody (headerWith 1 2 0)) .a (headerWith 1 2 0) ∧ 0 + 1 < (headerWith 1 2 0).bodyLength.toNat)
      ∧ (0 + 1 = (headerWith 2 1 0).bodyLength.toNat ∧ 0 + 1 ≠ (headerWith 2 1 0).recordCount.toNat)
      ∧ ((bytesRead loaderReset [0x03]).remainder ^^^ 0xFFFFFFFF ≠ (headerWith 1 1 0).bodyCrc)
      ∧ ((bytesRead loaderReset [0x03]).remainder ^^^ 0xFFFFFFFF = (headerWith 1 1 0x4B0BBE37).bodyCrc)
      ∧ NoAcceptance (atBody (headerWith 1 1 0x4B0BBE37))
      ∧ ¬ NoAcceptance (standing (atBody (headerWith 1 1 0x4B0BBE37)) writing) := by decide +kernel

theorem witness_forms :
    MemoryForm ready ∧ TablesForm ready.tables ∧ NumbersDiffer ready.tables ∧ ZeroEmpty ready.tables
      ∧ ReferencesCounted ready ∧ EntriesBacked ready ∧ CondemnedNamed ready ∧ RunsForm ready ∧ PointerForm ready
      ∧ ready.log.form = true ∧ (logged 16 65530 10).log.form = true := by decide +kernel

/-- Every form holds after reset. -/
theorem witness_inv : Inv State.reset := by
  refine ⟨?_, ?_, ?_, ?_, ?_, ?_, ?_, ?_, ?_, ?_, ?_, ?_, ?_, ?_, ?_, ?_, ?_, ?_, ?_, ?_, ?_, ?_, ?_, ?_, ?_, ?_, ?_, ?_,
    ?_⟩
    <;> decide +kernel

end Sys2Proof.Tests
end

section
/-! PROOF. The Overlay Lookup Unit: in a table of R9 the search for an address finds the one entry whose range holds
it, and the resolution of a word and the shadowing of a write follow from that entry's fields (R3, R4, R37). -/

namespace Sys2Proof.Proofs

open Sys2Proof Sys2Proof.Machine

variable {es : List Entry} {a : FetchAddr} {k : FetchKind} {e f : Entry} {i j : Nat}

/-! ### The search -/

theorem covers_iff : e.covers a = true ↔ e.base.toNat ≤ a.toNat ∧ a.toNat < e.base.toNat + e.length := by
  simp only [Entry.covers, Bool.and_eq_true, decide_eq_true_eq]
  rfl

theorem lookup_eq_none_iff : lookup es a = none ↔ ∀ e ∈ es, e.covers a = false := by
  simp only [lookup, List.find?_eq_none, List.forall_mem_iff_forall_getElem, List.length_zipIdx,
    List.getElem_zipIdx, Bool.not_eq_true]

/-- What the search answers is an entry of the table, under its own index, whose range holds the address. -/
theorem getElem?_of_lookup (h : lookup es a = some (e, i)) : es[i]? = some e ∧ e.covers a = true := by
  constructor
  · exact List.mem_zipIdx_iff_getElem?.mp (List.mem_of_find?_eq_some h)
  · exact List.find?_some (p := fun p : Entry × Nat => p.1.covers a) h

/-- R9: of two entries in order, the range of one at most holds an address. -/
theorem not_covers_of_top_le (hef : e.top ≤ f.base.toNat) (he : e.covers a = true) : f.covers a = false := by
  obtain ⟨-, hlt⟩ := covers_iff.mp he
  have hle : e.base.toNat + e.length ≤ f.base.toNat := hef
  rw [Bool.eq_false_iff, Ne, covers_iff]
  omega

/-- R9: an address has one entry at most in an ordered table. -/
theorem index_unique_of_covers (ho : Ordered es) (hi : es[i]? = some e) (hj : es[j]? = some f)
    (he : e.covers a = true) (hf : f.covers a = true) : i = j := by
  obtain ⟨hi', rfl⟩ := List.getElem?_eq_some_iff.mp hi
  obtain ⟨hj', rfl⟩ := List.getElem?_eq_some_iff.mp hj
  have ordered := List.pairwise_iff_getElem.mp ho
  rcases Nat.lt_trichotomy i j with hlt | heq | hgt
  · simp [not_covers_of_top_le (ordered i j hi' hj' hlt) he] at hf
  · exact heq
  · simp [not_covers_of_top_le (ordered j i hj' hi' hgt) hf] at he

/-- R9: in an ordered table the search answers the one entry whose range holds the address. -/
theorem lookup_eq_some_iff (ho : Ordered es) :
    lookup es a = some (e, i) ↔ es[i]? = some e ∧ e.covers a = true := by
  refine ⟨getElem?_of_lookup, fun ⟨hi, he⟩ => ?_⟩
  cases hl : lookup es a with
  | none =>
    have hnot := lookup_eq_none_iff.mp hl e (List.mem_of_getElem? hi)
    simp [he] at hnot
  | some found =>
    obtain ⟨f, j⟩ := found
    obtain ⟨hj, hf⟩ := getElem?_of_lookup hl
    obtain rfl := index_unique_of_covers ho hi hj he hf
    rw [Option.some.inj (hi.symm.trans hj)]

/-! ### What the entry found means for a word -/

theorem matches_eq_false_iff (p : Applies) :
    p.matches k = false ↔ (p = .code ∧ k = .data) ∨ (p = .data ∧ k = .code) := by
  cases p <;> cases k <;> decide

theorem resolve_of_lookup_none (h : lookup es a = none) : resolve es a k = .passthrough := by
  simp [resolve, h]

theorem shadowIndex_of_lookup_none (h : lookup es a = none) : shadowIndex es a = none := by
  simp [shadowIndex, h]

/-- R3: an entry found whose applies field does not match the fetch kind does not resolve the word. -/
theorem resolve_of_not_matches (h : lookup es a = some (e, i)) (hm : e.applies.matches k = false) :
    resolve es a k = .passthrough := by
  simp [resolve, h, hm]

/-- R4: an entry found whose applies field matches resolves the word by its kind. -/
theorem resolve_of_matches (h : lookup es a = some (e, i)) (hm : e.applies.matches k = true) :
    resolve es a k = match e.body with
      | .replace h o => .replace h (o + (a.toNat - e.base.toNat)) i
      | .fill v => .fill v i
      | .trap v => .trap v i
      | .count => .countOnly i := by
  cases hb : e.body <;> simp [resolve, h, hm, hb]

/-- R37: the shadowing of a write reads the kind of the entry found, and not its applies field. -/
theorem shadowIndex_of_lookup (h : lookup es a = some (e, i)) :
    shadowIndex es a = match e.body with
      | .replace _ _ => some i
      | .fill _ => some i
      | .trap _ => none
      | .count => none := by
  cases hb : e.body <;> simp [shadowIndex, h, hb]

/-! ### The statement -/

/-- Settles O10: R9 makes the entry found the one whose range holds the address, and R3, R4 and R37 read it. -/
theorem aWordResolvesByTheEntryThatHoldsIt : Obligations.AWordResolvesByTheEntryThatHoldsIt := by
  intro es a k ⟨_, _, ho⟩
  refine ⟨fun hout => ?_, fun i e hi hlo hhi => ?_⟩
  · have hl : lookup es a = none :=
      lookup_eq_none_iff.mpr fun e he => Bool.eq_false_iff.mpr (mt covers_iff.mp (hout e he))
    exact ⟨resolve_of_lookup_none hl, shadowIndex_of_lookup_none hl⟩
  · have hl : lookup es a = some (e, i) := (lookup_eq_some_iff ho).mpr ⟨hi, covers_iff.mpr ⟨hlo, hhi⟩⟩
    refine ⟨fun hk => ?_, fun hk => ?_, ?_⟩
    · exact resolve_of_not_matches hl ((matches_eq_false_iff e.applies).mpr hk)
    · have hm : e.applies.matches k = true := by
        rwa [← matches_eq_false_iff, Bool.not_eq_false] at hk
      exact resolve_of_matches hl hm
    · exact shadowIndex_of_lookup hl

end Sys2Proof.Proofs
end

section
/-! PROOF. The Event Log takes a record handed over: below 16 held the record is appended, and at 16 held it is dropped,
with a number of its own except at the limit of R129 (R128, R129). -/

namespace Sys2Proof.Proofs

open Sys2Proof Sys2Proof.Machine

/-! ### A full log -/

/-- R129: a drop offers the counter's number, which the record does not take where the oldest one held has it. -/
theorem drop_of_records_cons {l : EventLog} {oldest : LogRecord} {rest : List LogRecord}
    (hrec : l.records = oldest :: rest) :
    l.drop = { l with nextSequence :=
      if l.nextSequence = oldest.sequence then l.nextSequence else l.nextSequence + 1 } := by
  have hlimit : l.atLimit = (l.nextSequence == oldest.sequence) := by simp only [EventLog.atLimit, hrec]
  simp only [EventLog.drop, hlimit, beq_iff_eq]
  by_cases hseq : l.nextSequence = oldest.sequence
  · rw [if_pos hseq, if_pos hseq]
  · rw [if_neg hseq, if_neg hseq]

/-- R129: at 16 held the log drops the record, and OVERFLOW is the one cause raised. -/
theorem handOver_drop {s : State} {h : Handover} (hfull : 16 ≤ s.log.records.length) :
    s.handOver h = { s with
      log := s.log.drop
      irq := { s.irq with pending := s.irq.pending ||| 0b0000010 } } := by
  unfold State.handOver
  rw [if_neg (show ¬ s.log.records.length < Config.logRecords from Nat.not_lt.mpr hfull)]; rfl

/-! ### The statement -/

/-- Settles O39: the two branches of a hand-over, with the drop read at the oldest record held. -/
theorem aRecordIsAppendedOrDropped : Obligations.ARecordIsAppendedOrDropped := by
  intro s h
  refine ⟨fun hroom => handOver_append hroom, fun oldest rest hrec hfull => ?_⟩
  rw [handOver_drop hfull.ge, drop_of_records_cons hrec]

end Sys2Proof.Proofs
end

section
/-! PROOF. What a step can do, said once: the acts of the part outside chip reset, each with the guard under which its
rule allows it, and a step as a chain of acts, a reset, or a change of levels in chip reset. Every invariant is then proved
act by act. -/

namespace Sys2Proof.Proofs

open Sys2Proof Sys2Proof.Machine

/-! ### The end of a CRC read -/

/-- R63: the state with the job's segment decided by a computed CRC, the job gone and the port granted. -/
def sealDecided (s : State) (j : CrcJob) (crc : Crc32) : State :=
  { s with mem := { s.mem with
      segments := s.mem.segments.set j.handle ((s.segment j.handle).afterSeal crc j.expected)
      crcJob := none
      arbiter := s.mem.arbiter.passed } }

/-- R62: the state with one word of the job folded and the next one claimed. -/
def wordFolded (s : State) (j : CrcJob) (rem : Crc32) : State :=
  { s with mem := { s.mem with
      crcJob := some { j with remainder := rem, offset := j.offset + 1 }
      arbiter := { s.mem.arbiter with serving := none }.asked } }

/-- R62, R63, R66, R166: what the end of a CRC read does: the next word is claimed, or the seal completes, for the loader or
for the command unit. -/
inductive Folded (s : State) (j : CrcJob) : State → Prop
  | next (rem : Crc32) : j.offset + 1 < j.length → Folded s j (wordFolded s j rem)
  | record (crc : Crc32) : ¬ j.offset + 1 < j.length → j.forLoader = true → crc = j.expected →
      Folded s j (sealDecided s j crc).completeRecord
  | failed (crc : Crc32) : ¬ j.offset + 1 < j.length → j.forLoader = true → crc ≠ j.expected →
      Folded s j ((sealDecided s j crc).failRecord .sealCrc)
  | answered (crc : Crc32) (code : ResultCode) (bs : List Byte) : ¬ j.offset + 1 < j.length → j.forLoader = false →
      Folded s j (((sealDecided s j crc).release code bs).raise .cmdDone)

theorem foldCrcWord_folded (s : State) (j : CrcJob) : Folded s j (s.foldCrcWord j) := by
  have hdecided : ∀ crc, ({ (s.setArbiter s.mem.arbiter.finish).setSegment j.handle
        (((s.setArbiter s.mem.arbiter.finish).segment j.handle).afterSeal crc j.expected) with
      mem := { ((s.setArbiter s.mem.arbiter.finish).setSegment j.handle
          (((s.setArbiter s.mem.arbiter.finish).segment j.handle).afterSeal crc j.expected)).mem with
        crcJob := none, arbiter := s.mem.arbiter.finish.grant } } : State) = sealDecided s j crc := by
    intro crc
    rw [finish_grant]
    rfl
  unfold State.foldCrcWord
  dsimp only [State.setSegment_arbiter, State.setArbiter_arbiter] at hdecided ⊢
  split
  · rw [claimCrc_eq]
    exact .next _ ‹_›
  · rename_i hlast
    rw [hdecided]
    unfold State.reportSeal
    split
    · split
      · exact .record _ hlast ‹_› ‹_›
      · exact .failed _ hlast ‹_› ‹_›
    · exact .answered _ _ _ hlast (by simpa using ‹¬ j.forLoader = true›)

/-! ### The acts -/

/-- Two states that differ only in what no form of Safety.lean reads outside chip reset: the answer and the command
register, the causes, the divider, the data port's latches, the outputs and the queue. -/
structure Quiet (s t : State) : Prop where
  pins : t.pins = s.pins
  fetch : t.fetch = s.fetch
  ram : t.mem.ram = s.mem.ram
  segments : t.mem.segments = s.mem.segments
  pointer : t.mem.pointer = s.mem.pointer
  crcJob : t.mem.crcJob = s.mem.crcJob
  arbiter : t.mem.arbiter = s.mem.arbiter
  tables : t.tables = s.tables
  gen : t.gen = s.gen
  log : t.log = s.log
  busy : t.cmd.busy = s.cmd.busy
  loader : t.loader = s.loader

/-- The loader may fail the slot here: it awaits a header or reads a body's records. -/
abbrev SlotRead (s : State) : Prop := inPhase s .header = true ∨ inPhase s .records = true

/-- One act of the part outside chip reset, with the guard of its rule. -/
inductive Act : State → State → Prop
  | quiet {s t : State} : Quiet s t → Act s t
  /-- R65: the data-port access that had the RAM port ends. -/
  | portIdled (s : State) : Act s (s.setArbiter s.mem.arbiter.idled)
  /-- R56, R57, R66: an earlier data-port access ends and a new one is claimed. -/
  | portAsked (s : State) : Act s (s.setArbiter s.mem.arbiter.idled.dataAsked)
  /-- R38: the end of a fetch read whose word is discarded. -/
  | discard {s : State} : s.mem.arbiter.serving = some .discarded → Act s s.freePort
  /-- R46: SEG_ALLOC. -/
  | alloc {s : State} {k : Nat} {h : Handle} {r : Run} : Ready s → allocAnswer s k = .taken h r →
      Act s (s.setSegment h (.opened r))
  /-- R54, R56, R57: the data pointer is set, or moves on. -/
  | point {s : State} {p : DataPointer} : (s.segment p.handle).isFree = false →
      p.offset ≤ (s.segment p.handle).capacity → Act s { s with mem := { s.mem with pointer := some p } }
  /-- R56: a word is written through the data port. -/
  | store {s : State} {p : DataPointer} (w : Word) : writablePointer s = some p →
      Act s (s.storeSegmentWord p.handle p.offset w)
  /-- R61: SEG_SEAL. -/
  | sealStart {s : State} {h : Handle} {r : Run} {n : Nat} (e : Crc32) : Ready s → s.segment h = .opened r → 1 ≤ n →
      n ≤ (s.segment h).capacity → Act s ((s.startSeal h r n e false).hold .segSeal)
  /-- R49: SEG_UNSEAL. -/
  | reopen {s : State} {h : Handle} {r : Run} {d : SealData} : Ready s → s.segment h = .sealed r d → d.references = 0 →
      Act s (s.setSegment h (.opened r))
  /-- R50: SEG_FREE. -/
  | free {s : State} (h : Handle) : Ready s → Act s (s.freeSegment h)
  /-- R62, R63: a CRC read ends. -/
  | fold {s t : State} {j : CrcJob} : servedJob s = some j → Folded s j t → Act s t
  /-- R78: an insert is taken. -/
  | place {s : State} {q : InsertRequest} {e : Entry} {i : Nat} : insertAnswer s q = .taken e i →
      Act s (s.placeEntry e i)
  /-- R79: a staged entry is removed. -/
  | remove {s : State} {e : Entry} {i : Nat} : s.tables.staged[i]? = some e → Act s (s.removeEntry e i)
  /-- R81: STAGED is emptied. -/
  | clear (s : State) : Act s s.clearStaged
  /-- R82: LIVE is copied into the empty STAGED. -/
  | copy {s : State} : s.tables.staged = [] →
      Act s ((s.setStaged (s.tables.live.entries.map Entry.unhit)).addEntries s.tables.live.entries)
  /-- R32, R33: LIVE's counts alone change. -/
  | hits {s : State} {u : TableStore} : HitsOnly s.tables u → Act s { s with tables := u }
  /-- R89: COMMIT, with the switch it may take at once. -/
  | commit {s : State} (c : PendingCommit) : Ready s → s.gen.state = .steady → Act s (s.recordCommit c).settle
  /-- R97: COMMIT_ABORT. -/
  | abort {s : State} {c : PendingCommit} : s.gen.state = .commitPending c →
      Act s ((s.setLock false).setGenState .steady)
  /-- R101: REVERT, which may be taken at once. -/
  | revert {s : State} {o : LastOutcome} : Ready s → s.tables.prior.isSome = true →
      s.gen.state = .steady ∨ s.gen.state = .probation → Act s (s.holdRevert o).settle
  /-- R114: CONFIRM. -/
  | confirm {s : State} : s.gen.state = .probation →
      Act s { s with gen := { s.gen with state := .steady, lastOutcome := .confirmed } }
  /-- R131: LOG_POP. -/
  | pop {s : State} {r : LogRecord} {rest : List LogRecord} : s.log.records = r :: rest → Act s (s.setRecords rest)
  /-- R133: LOG_CLEAR. -/
  | empty (s : State) : Act s (s.setRecords [])
  /-- R110, R111: the tick. -/
  | tick (s : State) : Act s s.tick
  /-- R90, R102: a movement that waits is taken at fetch idle. -/
  | move {s : State} : s.fetch.request = none → Act s s.takeMovement
  /-- R38, R99: TRST# is asserted. -/
  | targetReset (s : State) : Act s s.targetReset
  /-- R38: TRST# is released. -/
  | targetRelease (s : State) : Act s { s with pins := { s.pins with trst := false } }
  /-- R21: a presentation is made. -/
  | stand (s : State) (p : Presentation) :
      Act s { s with pins := { s.pins with freq := true }, fetch := { s.fetch with standing := some p } }
  /-- R21: a presentation is withdrawn. -/
  | withdraw (s : State) :
      Act s { s with pins := { s.pins with freq := false }, fetch := { s.fetch with standing := none } }
  /-- R21, R91: an acceptance. -/
  | accept {s : State} {p : Presentation} : acceptable s = some p → Act s (s.accept p)
  /-- R29: a request is begun whose first word is ready at once. -/
  | begin {s : State} : wordReady s = true → Act s (serve 8 s)
  /-- R27: a ROM read cycle ends. -/
  | romRead {s : State} {r : Request} (w : Word) : s.fetch.romCycle = .read → s.fetch.request = some r →
      Act s (s.romReadEnds r w)
  /-- R36: a ROM write cycle ends. -/
  | romWrite {s : State} {r : Request} {w : Word} (fd : Word) : s.fetch.romCycle = .write w →
      s.fetch.request = some r → Act s (s.romWriteEnds r w fd)
  /-- R28: a fetch read ends. -/
  | fetchRead {s : State} {c : FetchClaim} : s.mem.arbiter.serving = some (.fetchRead c) → Act s (s.fetchReadEnds c)
  /-- R157: the zero-fill. -/
  | zeroFill {s : State} : inPhase s .zeroFill = true → Act s s.zeroFill
  /-- R160: slot A begins after the zero-fill. -/
  | firstSlot {s : State} : inPhase s .zeroFill = true → Act s (s.startSlot .a)
  /-- R173: the run ends, before its slots or after its switch. -/
  | endRun {s : State} (o : OutcomeRecord) : inPhase s .zeroFill = true ∨ inPhase s .switchWait = true →
      Act s (s.endRun o)
  /-- R170: the slot fails. -/
  | fail {s : State} (r : SlotResult) (i : Nat) : SlotRead s → Act s (s.failSlot r i)
  /-- R163: a body begins. -/
  | body {s : State} (h : ImageHeader) : inPhase s .header = true → Act s (s.setLoader (s.loader.beginBody h))
  /-- R164: body bytes of a record's fixed part are read. -/
  | read {s : State} {bs : List Byte} : atRecord s = true → bs.length ≤ bodyLeft s → Act s (s.readBody bs)
  /-- R164: a record is completed. -/
  | complete {s : State} : atRecord s = true → Act s s.completeRecord
  /-- R165: a SEGMENT record is begun. -/
  | segment {s : State} {h : Handle} {r : Run} {n : Nat} (e : Crc32) : atRecord s = true →
      2 * n ≤ bodyLeft s → n ≠ 0 → allocAnswer s ((n + 31) / 32) = .taken h r → Act s (s.beginSegment h r n e)
  /-- R166: a word of a SEGMENT record that is not its last. -/
  | word {s : State} {p : SegmentProgress} {r : Run} (w : Word) : inPhase s .records = true →
      s.loader.current = some p → s.segment p.handle = .opened r → p.written + 1 < p.length → Act s (s.loadWord p w)
  /-- R166: the last word of a SEGMENT record, with the loader's seal request. -/
  | lastWord {s : State} {p : SegmentProgress} {r : Run} (w : Word) : inPhase s .records = true →
      s.loader.current = some p → s.segment p.handle = .opened r → ¬ p.written + 1 < p.length →
      Act s ((s.loadWord p w).loaderSeal p r)
  /-- R169: END passes, and the loader commits. -/
  | succeed {s : State} {h : ImageHeader} : atRecord s = true → s.loader.header = some h → Act s (s.succeedSlot h)

/-- A chain of acts. -/
abbrev Acts : State → State → Prop := Relation.ReflTransGen Act

theorem Acts.refl {s : State} : Acts s s := Relation.ReflTransGen.refl

theorem Act.acts {s t : State} (h : Act s t) : Acts s t := .single h

/-- The power-on or chip reset values, with the levels, the RAM content, the loader's record and the queue that the reset
event gives: in chip reset the loader is idle, and at its end a run starts (R40, R156). -/
structure ResetTo (s t : State) : Prop where
  fetch : t.fetch = fetchReset
  mem : t.mem = memReset ∨ t.mem = { memReset with ram := s.mem.ram }
  tables : t.tables = tablesReset
  gen : t.gen = genReset
  log : t.log = logReset
  irq : t.irq = irqReset
  cmd : t.cmd = cmdReset
  divider : t.divider = 0
  loader : t.pins.xrst = true ∧ t.loader = loaderReset
    ∨ t.pins.xrst = false ∧ ∃ lden, t.loader = { loaderReset with state := .running, phase := .zeroFill, lden := lden }

/-- In chip reset only the levels of TRST# and FREQ#, the record of WD and the queue change (R40, R140). -/
structure LevelsOnly (s t : State) : Prop where
  inReset : s.pins.xrst = true
  xrst : t.pins.xrst = true
  fetch : t.fetch = s.fetch
  mem : t.mem = s.mem
  tables : t.tables = s.tables
  gen : t.gen = s.gen
  log : t.log = s.log
  irq : t.irq = s.irq
  cmd : t.cmd = s.cmd
  loader : t.loader = s.loader
  divider : t.divider = s.divider

/-- What a step does: a reset, a change of levels in chip reset, or a chain of acts outside it. -/
inductive Happens (s t : State) : Prop
  | reset : ResetTo s t → Happens s t
  | levels : LevelsOnly s t → Happens s t
  | acts : s.pins.xrst = false → Acts s t → Happens s t

/-! ### Quiet changes -/

theorem Quiet.act {s t : State} (h : Quiet s t) : Acts s t := .single (.quiet h)

theorem quiet_answer (s : State) (c : ResultCode) (bs : List Byte) : Quiet s (s.answer c bs) := by
  constructor <;> rfl

theorem quiet_raise (s : State) (c : Cause) : Quiet s (s.raise c) := by
  constructor <;> rfl

theorem quiet_refuse (s : State) : Quiet s s.refuse := by
  constructor <;> rfl

theorem quiet_setCommand (s : State) (v : Byte) : Quiet s (s.setCommand v) := by
  constructor <;> rfl

theorem quiet_driveWindow (s : State) (b : Byte) : Quiet s (s.driveWindow b) := by
  constructor <;> rfl

theorem quiet_rejectData (s : State) : Quiet s s.rejectData := by
  constructor <;> rfl

theorem quiet_setReadLatch (s : State) (b : Option Byte) : Quiet s (s.setReadLatch b) := by
  constructor <;> rfl

theorem quiet_pending (s : State) (q : List Instr) : Quiet s { s with pending := q } := by
  constructor <;> rfl

theorem quiet_writeParam (s : State) (i : Fin 16) (v : Byte) : Quiet s (s.writeParam i v) := by
  unfold State.writeParam
  split <;> constructor <;> rfl

theorem Acts.quiet {s t u : State} (h : Acts s t) (q : Quiet t u) : Acts s u := h.tail (.quiet q)

/-- A chain that ends in an answer. -/
theorem Acts.answer {s t : State} (h : Acts s t) (c : ResultCode) (bs : List Byte) : Acts s (t.answer c bs) :=
  h.quiet (quiet_answer t c bs)

/-- An act and its answer. -/
theorem Act.answer {s t : State} (h : Act s t) (c : ResultCode) (bs : List Byte) : Acts s (t.answer c bs) :=
  h.acts.answer c bs

theorem acts_answer (s : State) (c : ResultCode) (bs : List Byte) : Acts s (s.answer c bs) := Acts.refl.answer c bs

theorem acts_windowBegun (s : State) : Acts s (windowBegun s) := .single (.portIdled s)

/-! ### Movements -/

theorem settle_cases (s : State) :
    s.settle = s ∨ (s.fetch.request = none ∧ movementWaits s = true ∧ acceptable s = none ∧ s.settle = s.takeMovement) := by
  unfold State.settle
  split
  · exact .inl rfl
  · rename_i h
    simp only [Bool.or_eq_true, Bool.not_eq_true', not_or, Bool.not_eq_true, Option.isSome_eq_false_iff,
      Option.isNone_iff_eq_none, Bool.not_eq_false] at h
    exact .inr ⟨h.1.1, h.1.2, h.2, rfl⟩

theorem acts_settle (s : State) : Acts s s.settle := by
  rcases settle_cases s with h | ⟨hr, -, -, h⟩
  · rw [h]
  · rw [h]; exact .single (.move hr)

theorem acts_moveFirst (s : State) : Acts s s.moveFirst := by
  unfold State.moveFirst
  split
  · rfl
  · rename_i h
    simp only [Bool.or_eq_true, Bool.not_eq_true', not_or, Bool.not_eq_true, Option.isSome_eq_false_iff,
      Option.isNone_iff_eq_none] at h
    exact .single (.move h.1)

theorem acts_acceptStanding (s : State) : Acts s s.acceptStanding := by
  unfold State.acceptStanding
  split
  · rfl
  · exact .single (.accept ‹_›)

theorem acts_acceptOpen (s : State) : Acts s s.acceptOpen := by
  unfold State.acceptOpen
  split
  · rfl
  · exact acts_acceptStanding s

theorem acts_acceptOrBegin (s : State) : Acts s s.acceptOrBegin := by
  unfold State.acceptOrBegin
  split
  · exact .single (.begin ‹_›)
  · exact acts_acceptStanding s

/-! ### The command rows -/

/-- The handle check of a segment command either answers or goes on with the handle. -/
theorem acts_withHandle {s : State} {n : Nat} {go : Handle → State}
    (h : ∀ k, (s.segment k).isFree = false → Acts s (go k)) : Acts s (withHandle n s go) := by
  unfold withHandle
  split
  · exact acts_answer _ _ _
  · split
    · exact acts_answer _ _ _
    · exact h _ (Bool.eq_false_iff.mpr ‹_›)

theorem acts_segAlloc {s : State} (h : Ready s) : Acts s (segAllocOwner s) := by
  unfold segAllocOwner
  split
  · exact acts_answer _ _ _
  · exact (Act.alloc h ‹_›).answer _ _

theorem acts_segSelect (s : State) : Acts s (segSelectOwner s) := by
  refine acts_withHandle fun k hk => ?_
  split
  · rename_i ho
    exact Acts.answer ((Act.point (p := ⟨k, param2 s 1 2⟩) hk ho.le).acts.quiet (quiet_setReadLatch _ none)) _ _
  · exact acts_answer _ _ _

theorem acts_segSeal {s : State} (h : Ready s) : Acts s (segSealOwner s) := by
  refine acts_withHandle fun k _ => ?_
  split
  · rename_i r hs
    split
    · exact acts_answer _ _ _
    · rename_i hn
      rw [not_or, not_lt] at hn
      exact .single (.sealStart _ h hs (Nat.one_le_iff_ne_zero.mpr hn.1) hn.2)
  all_goals exact acts_answer _ _ _

theorem acts_segUnseal {s : State} (h : Ready s) : Acts s (segUnsealOwner s) := by
  refine acts_withHandle fun k _ => ?_
  split
  · rename_i r d hs
    split
    · exact (Act.reopen h hs ‹_›).answer _ _
    · exact acts_answer _ _ _
  all_goals exact acts_answer _ _ _

theorem acts_segFree {s : State} (h : Ready s) : Acts s (segFreeOwner s) := by
  refine acts_withHandle fun k _ => ?_
  have hfree : Acts s (s.freeSegment k) := .single (.free k h)
  split
  · exact hfree.answer _ _
  · exact hfree.answer _ _
  all_goals exact acts_answer _ _ _

theorem acts_segInfo (s : State) : Acts s (segInfoOwner s) := by
  unfold segInfoOwner
  split <;> exact acts_answer _ _ _

theorem acts_stgInsert (s : State) : Acts s (stgInsertOwner s) := by
  unfold stgInsertOwner
  split
  · exact acts_answer _ _ _
  · exact (Act.place ‹_›).answer _ _

theorem acts_stgRemove (s : State) : Acts s (stgRemoveOwner s) := by
  unfold stgRemoveOwner
  split
  · exact acts_answer _ _ _
  · split
    · exact acts_answer _ _ _
    · split
      · exact acts_answer _ _ _
      · split
        · exact acts_answer _ _ _
        · exact (Act.remove ‹_›).answer _ _

theorem acts_stgClear (s : State) : Acts s (stgClearOwner s) := by
  unfold stgClearOwner
  split
  · exact acts_answer _ _ _
  · exact (Act.clear s).answer _ _

/-- R82: the copy is the clearing of STAGED and then the copying of LIVE. -/
theorem acts_copyLive (s : State) : Acts s s.copyLive := by
  have h : s.copyLive = (s.clearStaged.setStaged (s.clearStaged.tables.live.entries.map Entry.unhit)).addEntries
      s.clearStaged.tables.live.entries := by
    simp [State.copyLive]
  rw [h]
  exact Relation.ReflTransGen.tail (.single (.clear s)) (.copy (by simp))

theorem acts_stgCopyLive (s : State) : Acts s (stgCopyLiveOwner s) := by
  unfold stgCopyLiveOwner
  split
  · exact acts_answer _ _ _
  · exact (acts_copyLive s).answer _ _

theorem acts_tblRead (s : State) : Acts s (tblReadOwner s) := by
  unfold tblReadOwner
  split <;> exact acts_answer _ _ _

/-- LIVE's entries replaced by ones that differ in their counts alone. -/
theorem act_setLiveEntries {s : State} {es : List Entry} (he : es.map Entry.unhit = s.tables.live.entries.map Entry.unhit)
    (hb : HitsBounded s.tables.live.entries → HitsBounded es) : Act s (s.setLiveEntries es) :=
  .hits ⟨rfl, rfl, rfl, rfl, he, hb⟩

theorem acts_cntClear (s : State) : Acts s (cntClearOwner s) := by
  have hzero : ∀ e : Entry, e.hits ≤ Config.hitsMax → e.unhit.hits ≤ Config.hitsMax := fun _ _ => Nat.zero_le _
  unfold cntClearOwner
  split
  · exact (act_setLiveEntries (map_unhit_modify_unhit _ _) (hitsBounded_modify _ _ _ hzero)).answer _ _
  · split
    · refine Act.answer (act_setLiveEntries (map_unhit_map_unhit _) fun _ => ?_) _ _
      intro e he
      obtain ⟨f, -, rfl⟩ := List.mem_map.mp he
      exact Nat.zero_le _
    · exact acts_answer _ _ _

theorem acts_commit {s : State} (h : Ready s) : Acts s (commitOwner s) := by
  unfold commitOwner
  split
  · exact acts_answer _ _ _
  · exact acts_answer _ _ _
  · exact acts_answer _ _ _
  · split
    · exact acts_answer _ _ _
    · rename_i hs _ c _
      exact Relation.ReflTransGen.tail (acts_answer s .ok (commitBytes s c.mode)) (.commit (s := s.answer .ok _) c h hs)

theorem acts_commitAbort (s : State) : Acts s (commitAbortOwner s) := by
  unfold commitAbortOwner
  split
  · exact (Act.abort ‹_›).answer _ _
  all_goals exact acts_answer _ _ _

theorem acts_revert {s : State} (h : Ready s) : Acts s (revertOwner s) := by
  unfold revertOwner
  split
  · exact acts_answer _ _ _
  · rename_i hp
    have hp : s.tables.prior.isSome = true := by simpa [Option.isSome_iff_ne_none] using hp
    split
    · exact acts_answer _ _ _
    · exact acts_answer _ _ _
    · exact .single (.revert h hp (.inl ‹_›))
    · exact .single (.revert h hp (.inr ‹_›))

theorem acts_confirm (s : State) : Acts s (confirmOwner s) := by
  unfold confirmOwner
  split
  · exact (Act.confirm ‹_›).answer _ _
  all_goals exact acts_answer _ _ _

theorem acts_logPop (s : State) : Acts s (logPopOwner s) := by
  unfold logPopOwner
  split
  · exact acts_answer _ _ _
  · exact (Act.pop ‹_›).answer _ _

theorem acts_logClear (s : State) : Acts s (logClearOwner s) :=
  (Act.empty s).answer _ _

/-! ### The event wrappers -/

/-- An event other than a change of XRST# or of power. -/
theorem happens_outOfReset {s t : State} {f : State → State} (hf : s.pins.xrst = false → Acts s (f s))
    (h : outOfReset s f = .next t) : Happens s t := by
  cases hx : s.pins.xrst with
  | true =>
    simp only [outOfReset, hx, if_true, Host.Outcome.next.injEq] at h
    subst h
    exact .levels ⟨hx, hx, rfl, rfl, rfl, rfl, rfl, rfl, rfl, rfl, rfl⟩
  | false =>
    simp only [outOfReset, hx, Bool.false_eq_true, if_false, Host.Outcome.next.injEq] at h
    subst h
    exact .acts hx (hf hx)

/-- A window access begins with the end of an earlier data-port access. -/
theorem happens_windowEvent {s t : State} {f : State → State} (hf : ∀ u, Acts u (f u))
    (h : windowEvent s f = .next t) : Happens s t := by
  refine happens_outOfReset (fun _ => ?_) h
  rw [dataEnded_begun]
  exact (acts_windowBegun s).trans (hf _)

/-- A window write of CMD: refused, answered LOADER_ACTIVE, or handed to its owner. -/
theorem happens_commandEvent {s t : State} {code : Byte} {w : Bool} {owner : State → State}
    (ho : ∀ u, Unheld u → (w = false → u.loader.state ≠ .running) → Acts u (owner u))
    (h : commandEvent code w owner s = .next t) : Happens s t := by
  refine happens_outOfReset (f := fun s => takeCommand code w owner s.dataEnded) (fun hx => ?_) h
  simp only [dataEnded_begun]
  refine (acts_windowBegun s).trans ?_
  have hset : Acts (windowBegun s) ((windowBegun s).setCommand code) := (quiet_setCommand _ _).act
  unfold takeCommand
  split
  · exact (quiet_refuse _).act
  · rename_i hb
    split
    · exact hset.answer _ _
    · rename_i hl
      refine hset.trans (ho _ ⟨hx, by simpa using hb⟩ fun hw hr => hl ?_)
      simpa [loaderRunning, hw] using hr

theorem happens_command {s t : State} {code : Byte} {owner : State → State} (ho : ∀ u, Ready u → Acts u (owner u))
    (h : commandEvent code false owner s = .next t) : Happens s t :=
  happens_commandEvent (fun u hu hl => ho u ⟨hu.1, hu.2, hl rfl⟩) h

/-! ### The data port -/

theorem quiet_writeDataLo (s : State) (v : Byte) : Quiet s (s.writeDataLo v) := by
  constructor <;> rfl

theorem quiet_writeStatus (s : State) (v : Byte) : Quiet s (s.writeStatus v) := by
  constructor <;> rfl

theorem quiet_writeIntPend (s : State) (v : Byte) : Quiet s (s.writeIntPend v) := by
  constructor <;> rfl

theorem quiet_writeIntEn (s : State) (v : Byte) : Quiet s (s.writeIntEn v) := by
  constructor <;> rfl

theorem quiet_badCommand (s : State) (v : Byte) : Quiet s (badCommandEffect v s) := by
  unfold badCommandEffect
  split <;> constructor <;> rfl

/-- The claim of a data-port access, after the end of an earlier one. -/
theorem act_claimData (s : State) : Act s (s.setArbiter s.mem.arbiter.dataEnded.claimData) := by
  rw [arbiter_dataEnded_eq, claimData_eq]
  exact .portAsked s

/-- R56: where a word can be written, the pointer stands below the capacity of an OPEN segment. -/
theorem writablePointer_some {s : State} {p : DataPointer} (h : writablePointer s = some p) :
    s.loader.state ≠ .running ∧ s.mem.pointer = some p ∧ (∃ r, s.segment p.handle = .opened r)
      ∧ p.offset < (s.segment p.handle).capacity := by
  unfold writablePointer at h
  split at h
  · cases h
  · rename_i hl
    split at h
    · cases h
    · split at h <;> (try cases h)
      split at h <;> cases h
      exact ⟨by simpa [loaderRunning] using hl, ‹_›, ⟨_, ‹_›⟩, ‹_›⟩

theorem acts_writeDataHi (s : State) (v : Byte) : Acts s (s.dataEnded.writeDataHi v) := by
  unfold State.writeDataHi
  have hw : writablePointer s.dataEnded = writablePointer s := rfl
  rw [hw]
  split
  · rw [dataEnded_begun]
    exact (acts_windowBegun s).quiet (quiet_rejectData _)
  · rename_i p hp
    obtain ⟨-, -, ⟨r, hr⟩, ho⟩ := writablePointer_some hp
    have hf : (s.segment p.handle).isFree = false := by rw [hr]; rfl
    have hpoint := Act.point (s := s.storeSegmentWord p.handle p.offset (wordOf v s.mem.writeLatch))
      (p := { p with offset := p.offset + 1 }) hf ho
    exact ((Act.store _ hp).acts.tail hpoint).tail (act_claimData _)

theorem acts_readDataLo (s : State) : Acts s s.dataEnded.readDataLo := by
  unfold State.readDataLo
  have hr : readablePointer s.dataEnded = readablePointer s := rfl
  rw [hr]
  split
  · rw [dataEnded_begun]
    exact (((acts_windowBegun s).quiet (quiet_setReadLatch _ _)).quiet (quiet_rejectData _)).quiet
      (quiet_driveWindow _ _)
  · exact ((quiet_setReadLatch s _).act.quiet (quiet_driveWindow _ _)).tail (act_claimData _)

theorem acts_advancePointer (s : State) : Acts s s.advancePointer := by
  unfold State.advancePointer
  split
  · rfl
  · rename_i p _
    split
    · rename_i ho
      have hf : (s.segment p.handle).isFree = false := by
        rw [Bool.eq_false_iff]
        intro hf
        rw [(isFree_eq_true_iff _).mp hf] at ho
        exact Nat.not_lt_zero _ ho
      exact (Act.point (p := { p with offset := p.offset + 1 }) hf ho).acts
    · rfl

theorem acts_readDataHi (s : State) : Acts s s.readDataHi := by
  unfold State.readDataHi
  split
  · exact (quiet_rejectData s).act.quiet (quiet_driveWindow _ _)
  · exact Acts.quiet ((quiet_setReadLatch s none).act.trans (acts_advancePointer _)) (quiet_driveWindow _ _)

/-- A data-port read: outside chip reset it is a window access, and in chip reset it drives 00h. -/
theorem happens_dataRead {s t : State} {f : State → State} (hf : Acts s (f s.dataEnded))
    (h : Host.Outcome.next (φ := Fault) (ρ := Refusal) (if s.pins.xrst then s.driveWindow 0 else f s.dataEnded) = .next t) :
    Happens s t := by
  cases hx : s.pins.xrst with
  | true =>
    simp only [hx, if_true, Host.Outcome.next.injEq] at h
    subst h
    exact .levels ⟨hx, hx, rfl, rfl, rfl, rfl, rfl, rfl, rfl, rfl, rfl⟩
  | false =>
    simp only [hx, Bool.false_eq_true, if_false, Host.Outcome.next.injEq] at h
    subst h
    exact .acts hx hf

/-! ### The loader's rows -/

theorem slotRead_of_atRecord {s : State} (h : atRecord s = true) : SlotRead s := by
  simp only [atRecord, Bool.and_eq_true] at h
  exact .inr h.1

/-- The record failed here, in the phase of records. -/
theorem acts_failRecord {s : State} (h : atRecord s = true) (r : SlotResult) : Acts s (s.failRecord r) :=
  (Act.fail r _ (slotRead_of_atRecord h)).acts

theorem atRecord_readBody (s : State) (bs : List Byte) : atRecord (s.readBody bs) = atRecord s := rfl

theorem atRecord_placeEntry (s : State) (e : Entry) (i : Nat) : atRecord (s.placeEntry e i) = atRecord s := by
  simp [atRecord, inPhase, loaderRunning]

theorem acts_record {s : State} {bs : List Byte} {act : State → State} (h : ∀ u, atRecord u = true → Acts u (act u)) :
    Acts s (s.record bs act) := by
  unfold State.record
  split
  · rfl
  · rename_i ha
    have ha : atRecord s = true := by simpa using ha
    split
    · exact acts_failRecord ha _
    · exact (Act.read ha (not_lt.mp ‹_›)).acts.trans (h _ ha)

theorem happens_record {s t : State} {bs : List Byte} {act : State → State}
    (ha : ∀ u, atRecord u = true → Acts u (act u)) (h : outOfReset s (fun u => u.record bs act) = .next t) :
    Happens s t :=
  happens_outOfReset (f := fun u => u.record bs act) (fun _ => acts_record ha) h

theorem acts_segmentFixed {s : State} (ha : atRecord s = true) (n : Nat) (e : Crc32) : Acts s (s.segmentFixed n e) := by
  unfold State.segmentFixed
  split
  · exact acts_failRecord ha _
  · rename_i hn
    split
    · exact acts_failRecord ha _
    · rename_i hz
      split
      · exact acts_failRecord ha _
      · exact (Act.segment e ha (by omega) (by omega) ‹_›).acts

theorem acts_loaderInsert {s : State} (ha : atRecord s = true) (q : InsertRequest) : Acts s (s.loaderInsert q) := by
  unfold State.loaderInsert
  split
  · exact acts_failRecord ha _
  · exact (Act.place ‹_›).acts.tail (.complete ((atRecord_placeEntry _ _ _).trans ha))

theorem acts_entryFixed {s : State} (ha : atRecord s = true) (q : InsertRequest) (n : Nat) :
    Acts s (s.entryFixed q n) := by
  unfold State.entryFixed
  split
  · split
    · exact acts_failRecord ha _
    · exact acts_loaderInsert ha _
  · exact acts_loaderInsert ha _

theorem acts_endFixed {s : State} (ha : atRecord s = true) : Acts s s.endFixed := by
  unfold State.endFixed
  split
  · exact acts_failRecord ha _
  · split
    · exact acts_failRecord ha _
    · exact (Act.succeed ha ‹_›).acts

/-! ### The rows of the table -/

theorem happens_powerOn {s t : State} {lden trst freq : Bool} (h : execPowerOn lden trst freq s = .next t) :
    Happens s t := by
  obtain rfl := Host.Outcome.next.inj h
  exact .reset ⟨rfl, .inl rfl, rfl, rfl, rfl, rfl, rfl, rfl, .inr ⟨rfl, lden, rfl⟩⟩

theorem happens_xrstAssert {s t : State} (h : execXrstAssert s = .next t) : Happens s t := by
  have h := Host.Outcome.next.inj h
  cases hx : s.pins.xrst with
  | true =>
    simp only [if_pos hx] at h
    subst h
    exact .levels ⟨hx, hx, rfl, rfl, rfl, rfl, rfl, rfl, rfl, rfl, rfl⟩
  | false =>
    simp only [if_neg (Bool.eq_false_iff.mp hx)] at h
    subst h
    exact .reset ⟨rfl, .inr rfl, rfl, rfl, rfl, rfl, rfl, rfl, .inl ⟨rfl, rfl⟩⟩

theorem happens_xrstRelease {s t : State} {lden : Bool} (h : execXrstRelease lden s = .next t) : Happens s t := by
  have h := Host.Outcome.next.inj h
  cases hx : s.pins.xrst with
  | true =>
    simp only [if_pos hx] at h
    subst h
    exact .reset ⟨rfl, .inr rfl, rfl, rfl, rfl, rfl, rfl, rfl, .inr ⟨rfl, lden, rfl⟩⟩
  | false =>
    simp only [if_neg (Bool.eq_false_iff.mp hx)] at h
    subst h
    exact .acts hx .refl

theorem happens_trstAssert {s t : State} (h : execTrstAssert s = .next t) : Happens s t := by
  have h := Host.Outcome.next.inj h
  cases hx : s.pins.xrst with
  | true =>
    simp only [if_pos hx] at h
    subst h
    refine .levels ?_
    split <;> constructor <;> first | exact hx | rfl
  | false =>
    simp only [if_neg (Bool.eq_false_iff.mp hx)] at h
    subst h
    refine .acts hx ?_
    split
    · rfl
    · exact (Act.targetReset s).acts

theorem happens_trstRelease {s t : State} (h : execTrstRelease s = .next t) : Happens s t := by
  have h := Host.Outcome.next.inj h
  cases hx : s.pins.xrst with
  | true =>
    simp only [if_pos hx] at h
    subst h
    exact .levels ⟨hx, hx, rfl, rfl, rfl, rfl, rfl, rfl, rfl, rfl, rfl⟩
  | false =>
    simp only [if_neg (Bool.eq_false_iff.mp hx)] at h
    subst h
    refine .acts hx ?_
    split
    · exact (Act.targetRelease s).acts.trans (acts_acceptOpen _)
    · rfl

theorem happens_freqPresent {s t : State} {fa : FetchAddr} {l : FetchLength} {k : FetchKind} {d : FetchDir} {fd : Word}
    (h : execFreqPresent fa l k d fd s = .next t) : Happens s t := by
  have h := Host.Outcome.next.inj h
  cases hx : s.pins.xrst with
  | true =>
    simp only [if_pos hx] at h
    subst h
    refine .levels ?_
    split <;> constructor <;> first | exact hx | rfl
  | false =>
    simp only [if_neg (Bool.eq_false_iff.mp hx)] at h
    subst h
    refine .acts hx ?_
    split
    · rfl
    · exact (Act.stand s ⟨fa, l, k, d, fd⟩).acts.trans (acts_acceptOpen _)

theorem happens_freqRelease {s t : State} (h : execFreqRelease s = .next t) : Happens s t := by
  have h := Host.Outcome.next.inj h
  cases hx : s.pins.xrst with
  | true =>
    simp only [if_pos hx] at h
    subst h
    refine .levels ?_
    split <;> constructor <;> first | exact hx | rfl
  | false =>
    simp only [if_neg (Bool.eq_false_iff.mp hx)] at h
    subst h
    refine .acts hx ?_
    split
    · exact (Act.withdraw s).acts.trans (acts_settle _)
    · rfl

theorem happens_romReadDone {s t : State} {rd : Word} (h : execRomReadDone rd s = .next t) : Happens s t := by
  refine happens_outOfReset (fun _ => ?_) h
  split
  · exact (Act.romRead rd ‹_› ‹_›).acts
  · rfl

theorem happens_romWriteDone {s t : State} {fd : Word} (h : execRomWriteDone fd s = .next t) : Happens s t := by
  refine happens_outOfReset (fun _ => ?_) h
  split
  · exact (Act.romWrite fd ‹_› ‹_›).acts
  · rfl

theorem happens_fetchRamReadDone {s t : State} (h : execFetchRamReadDone s = .next t) : Happens s t := by
  refine happens_outOfReset (fun _ => ?_) h
  simp only [dataEnded_begun, arbiter_dataEnded_eq]
  split
  · exact (acts_windowBegun s).tail (.fetchRead (s := windowBegun s) ‹_›)
  · exact (Act.discard (idled_discarded ‹_›)).acts
  all_goals rfl

theorem happens_crcWordRead {s t : State} (h : execCrcWordRead s = .next t) : Happens s t := by
  refine happens_outOfReset (fun _ => ?_) h
  simp only [dataEnded_begun]
  split
  · rfl
  · exact (acts_windowBegun s).tail (.fold ‹_› (foldCrcWord_folded _ _))

theorem happens_sealComplete {s t : State} (h : execSealComplete s = .next t) : Happens s t := by
  refine happens_outOfReset (fun _ => ?_) h
  simp only [dataEnded_begun]
  split
  · rfl
  · split
    · rfl
    · exact (acts_windowBegun s).tail (.fold ‹_› (foldCrcWord_folded _ _))

theorem happens_switch {s t : State} (h : execSwitch s = .next t) : Happens s t := by
  refine happens_outOfReset (fun _ => ?_) h
  split
  · rfl
  · split
    · exact acts_acceptStanding s
    · exact acts_moveFirst s
  all_goals rfl

theorem happens_revertTaken {s t : State} (h : execRevertTaken s = .next t) : Happens s t := by
  refine happens_outOfReset (fun _ => ?_) h
  split
  case h_4 => exact acts_moveFirst s
  all_goals rfl

theorem happens_zeroFillEnd {s t : State} (h : execZeroFillEnd s = .next t) : Happens s t := by
  refine happens_outOfReset (fun _ => ?_) h
  split
  · rename_i hz
    have hfill : Acts s s.zeroFill := (Act.zeroFill hz).acts
    split
    · exact hfill.tail (.firstSlot hz)
    · exact hfill.tail (.endRun _ (.inl hz))
  · rfl

theorem happens_headerReceived {s t : State} {b : Vector Byte 16} (h : execHeaderReceived b s = .next t) :
    Happens s t := by
  refine happens_outOfReset (fun _ => ?_) h
  split
  · rename_i hh
    split
    · exact (Act.fail _ _ (.inl hh)).acts
    · exact (Act.body _ hh).acts
  · rfl

theorem happens_unknownRecordType {s t : State} {ty : Byte} (h : execUnknownRecordType ty s = .next t) :
    Happens s t := by
  refine happens_outOfReset (fun _ => ?_) h
  split
  · rename_i hr
    simp only [Bool.and_eq_true] at hr
    exact acts_failRecord hr.1 _
  · rfl

theorem happens_segmentWord {s t : State} {w : Word} (h : execSegmentWord w s = .next t) : Happens s t := by
  refine happens_outOfReset (fun _ => ?_) h
  split
  · rfl
  · split
    · split
      · split
        · exact (Act.word w ‹_› ‹_› ‹_› ‹_›).acts
        · exact (Act.lastWord w ‹_› ‹_› ‹_› ‹_›).acts
      all_goals rfl
    · rfl

theorem happens_loaderRunEnd {s t : State} (h : execLoaderRunEnd s = .next t) : Happens s t := by
  refine happens_outOfReset (fun _ => ?_) h
  split
  · rename_i hs
    simp only [loaderSwitched, Bool.and_eq_true] at hs
    exact (Act.endRun _ (.inr hs.1)).acts
  · rfl

/-- What a command of the queue can do. -/
theorem exec_happens {c : Instr} {s t : State} (h : exec c s = .next t) : Happens s t := by
  cases c with
  | powerOn => exact happens_powerOn h
  | xrstAssert => exact happens_xrstAssert h
  | xrstRelease => exact happens_xrstRelease h
  | trstAssert => exact happens_trstAssert h
  | trstRelease => exact happens_trstRelease h
  | resetExcess =>
    refine happens_outOfReset (fun _ => ?_) h
    split
    · exact (Act.targetReset s).acts
    · rfl
  | freqPresent => exact happens_freqPresent h
  | fetchAccept => exact happens_outOfReset (fun _ => acts_acceptOrBegin s) h
  | romReadDone => exact happens_romReadDone h
  | romWriteDone => exact happens_romWriteDone h
  | fetchRamReadDone => exact happens_fetchRamReadDone h
  | crcWordRead => exact happens_crcWordRead h
  | sealComplete => exact happens_sealComplete h
  | msTick => exact happens_outOfReset (fun _ => (Act.tick s).acts) h
  | probationExpiry =>
    refine happens_outOfReset (fun _ => ?_) h
    split
    · exact (Act.tick s).acts
    · rfl
  | switch => exact happens_switch h
  | revertTaken => exact happens_revertTaken h
  | segAlloc => exact happens_command (fun _ hu => acts_segAlloc hu) h
  | segSelect => exact happens_command (fun u _ => acts_segSelect u) h
  | segSeal => exact happens_command (fun _ hu => acts_segSeal hu) h
  | segUnseal => exact happens_command (fun _ hu => acts_segUnseal hu) h
  | segFree => exact happens_command (fun _ hu => acts_segFree hu) h
  | segInfo => exact happens_command (fun u _ => acts_segInfo u) h
  | stgInsert => exact happens_command (fun u _ => acts_stgInsert u) h
  | stgRemove => exact happens_command (fun u _ => acts_stgRemove u) h
  | stgClear => exact happens_command (fun u _ => acts_stgClear u) h
  | stgCopyLive => exact happens_command (fun u _ => acts_stgCopyLive u) h
  | tblRead => exact happens_commandEvent (fun u _ _ => acts_tblRead u) h
  | cntClear => exact happens_command (fun u _ => acts_cntClear u) h
  | commit => exact happens_command (fun _ hu => acts_commit hu) h
  | commitAbort => exact happens_command (fun u _ => acts_commitAbort u) h
  | revert => exact happens_command (fun _ hu => acts_revert hu) h
  | confirm => exact happens_command (fun u _ => acts_confirm u) h
  | genStatus => exact happens_commandEvent (fun u _ _ => acts_answer u _ _) h
  | logPop => exact happens_command (fun u _ => acts_logPop u) h
  | logClear => exact happens_command (fun u _ => acts_logClear u) h
  | ldrStatus => exact happens_commandEvent (fun u _ _ => acts_answer u _ _) h
  | badCommand code =>
    change (if namesCommand code then Host.Outcome.next s else windowEvent s (badCommandEffect code)) = .next t at h
    split at h
    · exact happens_outOfReset (f := id) (fun _ => .refl) (by simpa [outOfReset] using h)
    · exact happens_windowEvent (fun u => (quiet_badCommand u code).act) h
  | parameterWrite i v => exact happens_windowEvent (fun u => (quiet_writeParam u i v).act) h
  | statusWrite v => exact happens_windowEvent (fun u => (quiet_writeStatus u v).act) h
  | intPendWrite v => exact happens_windowEvent (fun u => (quiet_writeIntPend u v).act) h
  | intEnWrite v => exact happens_windowEvent (fun u => (quiet_writeIntEn u v).act) h
  | dataLoWrite v => exact happens_windowEvent (fun u => (quiet_writeDataLo u v).act) h
  | dataHiWrite v => exact happens_outOfReset (f := fun u => u.dataEnded.writeDataHi v) (fun _ => acts_writeDataHi s v) h
  | dataLoRead => exact happens_dataRead (acts_readDataLo s) h
  | dataHiRead =>
    refine happens_dataRead (f := State.readDataHi) ?_ h
    rw [dataEnded_begun]
    exact (acts_windowBegun s).trans (acts_readDataHi _)
  | windowWriteIgnored => exact happens_windowEvent (fun _ => .refl) h
  | zeroFillEnd => exact happens_zeroFillEnd h
  | headerReceived => exact happens_headerReceived h
  | unknownRecordType => exact happens_unknownRecordType h
  | segmentRecord => exact happens_record (fun _ hu => acts_segmentFixed hu _ _) h
  | segmentWord => exact happens_segmentWord h
  | entryRecord => exact happens_record (fun _ hu => acts_entryFixed hu _ _) h
  | endRecord => exact happens_record (fun _ hu => acts_endFixed hu) h
  | loaderRunEnd => exact happens_loaderRunEnd h
  | freqRelease => exact happens_freqRelease h

/-! ### The empty queue and the step -/

theorem acts_clockPeriod (s : State) : Acts s s.clockPeriod := by
  unfold State.clockPeriod
  split
  · exact (Act.tick s).acts
  · exact Quiet.act (by constructor <;> rfl)

theorem emptyQueue_happens {s t : State} (h : emptyQueue s = .next t) : Happens s t := by
  refine happens_outOfReset (fun _ => ?_) h
  split
  · rw [dataEnded_begun]
    exact acts_windowBegun s
  · split
    · exact (Act.begin ‹_›).acts
    · split
      · split
        · exact acts_moveFirst s
        · exact acts_acceptStanding s
      · exact acts_clockPeriod s

/-- What a step can do. -/
theorem step_happens {s t : State} (h : step s = .next t) : Happens s t := by
  unfold step at h
  split at h
  · exact emptyQueue_happens h
  · rename_i c rest _
    rcases exec_happens h with hr | hl | ⟨hx, ha⟩
    · exact .reset ⟨hr.fetch, hr.mem, hr.tables, hr.gen, hr.log, hr.irq, hr.cmd, hr.divider, hr.loader⟩
    · exact .levels ⟨hl.inReset, hl.xrst, hl.fetch, hl.mem, hl.tables, hl.gen, hl.log, hl.irq, hl.cmd, hl.loader,
        hl.divider⟩
    · exact .acts hx ((quiet_pending s rest).act.trans ha)

/-- The induction of every invariant: what a reset, a change of levels and every act keep, a step keeps. -/
theorem step_keeps (P : State → Prop) (hreset : ∀ s t, P s → ResetTo s t → P t)
    (hlevels : ∀ s t, P s → LevelsOnly s t → P t) (hact : ∀ s t, P s → Act s t → P t) {s t : State} (hs : P s)
    (h : step s = .next t) : P t := by
  rcases step_happens h with hr | hl | ⟨-, ha⟩
  · exact hreset s t hs hr
  · exact hlevels s t hs hl
  · clear h
    induction ha with
    | refl => exact hs
    | tail _ hstep ih => exact hact _ _ ih hstep

/-! ### Movements, for any property -/

/-- What keeps a property through every movement of tables: the switch of a commit that is pending, and the taking of a
revert that waits. -/
structure KeptByMovements (P : State → Prop) : Prop where
  takeSwitch : ∀ s c, P s → s.gen.state = .commitPending c → P (s.takeSwitch c)
  takeRevert : ∀ s o, P s → s.gen.state = .revertWaiting o → P (s.takeRevert o)

variable {P : State → Prop} {s : State}

theorem KeptByMovements.takeMovement (k : KeptByMovements P) (h : P s) : P s.takeMovement := by
  unfold State.takeMovement
  split
  · exact h
  · split
    · exact k.takeSwitch _ _ h ‹_›
    · exact h
  · exact h
  · exact k.takeRevert _ _ h ‹_›

theorem KeptByMovements.settle (k : KeptByMovements P) (h : P s) : P s.settle := by
  rcases settle_cases s with e | ⟨-, -, -, e⟩
  · rwa [e]
  · rw [e]; exact k.takeMovement h

theorem KeptByMovements.switchAtAccept (k : KeptByMovements P) (h : P s) (p : Presentation) : P (s.switchAtAccept p) := by
  unfold State.switchAtAccept
  split
  · exact h
  · split
    · exact h
    · split
      · exact k.takeSwitch _ _ h ‹_›
      · exact h
    · exact h
  · exact h
  · exact h

/-- R99: an assertion of TRST# at the Generation Controller is a switch, or a count. -/
theorem KeptByMovements.targetResetGen (k : KeptByMovements P) (hc : ∀ u, P u → u.gen.state = .probation → P u.countReset)
    (h : P s) : P s.targetResetGen := by
  unfold State.targetResetGen
  split
  · exact h
  · split
    · exact k.takeSwitch _ _ h ‹_›
    · exact h
  · exact hc _ h ‹_›
  · exact h

/-- R38, R99: an assertion of TRST#, in the vocabulary of Safety.lean. -/
theorem targetReset_eq (s : State) : s.targetReset = (requestEnded s).targetResetGen.settle := by
  unfold State.targetReset
  rw [← endRequest_eq]

theorem KeptByMovements.targetReset (k : KeptByMovements P) (hr : P (requestEnded s))
    (hc : ∀ u, P u → u.gen.state = .probation → P u.countReset) : P s.targetReset := by
  rw [targetReset_eq]
  exact k.settle (k.targetResetGen hc hr)

/-- R110: a tick is the trial's, and what it decides at fetch idle. -/
theorem KeptByMovements.tick (k : KeptByMovements P) (h : P ({ s with divider := 0 } : State).tickTrial) : P s.tick := by
  unfold State.tick
  dsimp only
  split
  · exact k.settle h
  · exact h

end Sys2Proof.Proofs
end

section
/-! PROOF. Patch RAM and the Event Log: the form of the RAM list (logs 7, 8) and of the held records (R129, R130) are kept
by every act. -/

namespace Sys2Proof.Proofs

open Sys2Proof Sys2Proof.Machine

/-! ### Patch RAM -/

/-- A write is through the data port or by the loader, and the zero-fill empties the list. -/
theorem memoryForm_act {s t : State} (h : MemoryForm s) (a : Act s t) : MemoryForm t := by
  cases a with
  | quiet q => rwa [MemoryForm, q.ram]
  | store w _ => exact Memory.wf_ramStore _ _ _ h
  | word w _ _ _ _ => exact Memory.wf_ramStore _ _ _ h
  | lastWord w _ _ _ _ => exact Memory.wf_ramStore _ _ _ h
  | zeroFill _ => rfl
  | fold _ hf => cases hf <;> simpa [MemoryForm, sealDecided, wordFolded] using h
  | _ => simpa [MemoryForm] using h

theorem memoryForm_reset {s t : State} (h : MemoryForm s) (r : ResetTo s t) : MemoryForm t := by
  rcases r.mem with e | e
  · rw [MemoryForm, e]; rfl
  · rw [MemoryForm, e]; exact h

/-- Settles O55: patch RAM's list is changed by a store, which keeps its form, or emptied. -/
theorem everyStepKeepsTheMemoryForm : Obligations.EveryStepKeepsTheMemoryForm := fun _ _ hs h =>
  step_keeps MemoryForm (fun _ _ => memoryForm_reset) (fun _ _ hs l => by rwa [MemoryForm, l.mem])
    (fun _ _ => memoryForm_act) hs h

/-! ### The circle of sequence numbers (R130) -/

theorem seqDistance_self (a : BitVec 16) : seqDistance a a = 0 := by simp [seqDistance]

/-- Distances from a later number are those from the earlier one, less the distance between the two. -/
theorem seqDistance_shift {a b c : BitVec 16} (h : seqDistance a b ≤ seqDistance a c) :
    seqDistance b c = seqDistance a c - seqDistance a b := by
  unfold seqDistance at *
  bv_omega

theorem counterDistance_self (a : BitVec 16) : counterDistance a a = 65536 := if_pos rfl

theorem counterDistance_ne {a n : BitVec 16} (h : n ≠ a) : counterDistance a n = seqDistance a n := if_neg h

theorem counterDistance_shift {a b n : BitVec 16} (hb : 0 < seqDistance a b)
    (h : seqDistance a b < counterDistance a n) :
    counterDistance b n = counterDistance a n - seqDistance a b := by
  by_cases ha : n = a
  · subst ha
    have hne : n ≠ b := fun e => by subst e; simp [seqDistance_self] at hb
    rw [counterDistance_ne hne, counterDistance_self]
    unfold seqDistance at *
    bv_omega
  · rw [counterDistance_ne ha] at h ⊢
    have hne : n ≠ b := fun e => by subst e; exact Nat.lt_irrefl _ h
    rw [counterDistance_ne hne]
    exact seqDistance_shift h.le

/-- A number that the counter gives moves it one further from the oldest. -/
theorem counterDistance_next {a n : BitVec 16} (h : n ≠ a) :
    counterDistance a (n + 1) = counterDistance a n + 1 := by
  rw [counterDistance_ne h]
  by_cases e : n + 1 = a
  · subst e
    rw [counterDistance_self]
    unfold seqDistance
    bv_omega
  · rw [counterDistance_ne e]
    unfold seqDistance
    bv_omega

/-! ### The form of the log -/

/-- R129, R130: the form of a log that holds records, part by part. -/
structure Held (r : LogRecord) (rest : List LogRecord) (next : BitVec 16) : Prop where
  rising : (r :: rest).Pairwise fun a b => seqDistance r.sequence a.sequence < seqDistance r.sequence b.sequence
  below : ∀ a ∈ r :: rest, seqDistance r.sequence a.sequence < counterDistance r.sequence next
  bounded : (r :: rest).length ≤ 16
  room : counterDistance r.sequence next + 16 ≤ 65536 + (r :: rest).length

theorem form_iff_held {l : EventLog} {r : LogRecord} {rest : List LogRecord} (h : l.records = r :: rest) :
    l.form = true ↔ Held r rest l.nextSequence := by
  unfold EventLog.form
  rw [h]
  simp only [Bool.and_eq_true, decide_eq_true_eq, List.all_eq_true, Config.logRecords]
  exact ⟨fun ⟨⟨⟨h1, h2⟩, h3⟩, h4⟩ => ⟨h1, h2, of_decide_eq_true h3, of_decide_eq_true h4⟩,
    fun h => ⟨⟨⟨h.rising, h.below⟩, decide_eq_true h.bounded⟩, decide_eq_true h.room⟩⟩

theorem form_nil {l : EventLog} (h : l.records = []) : l.form = true := by
  unfold EventLog.form
  rw [h]

/-- R128: below 16 held the counter has not come round to the oldest number. -/
theorem Held.next_ne {r : LogRecord} {rest : List LogRecord} {next : BitVec 16} (h : Held r rest next)
    (hl : (r :: rest).length < 16) : next ≠ r.sequence := by
  intro e
  have := h.room
  rw [e, counterDistance_self] at this
  omega

theorem form_append {l : EventLog} (x : Handover) (h : l.form = true) (hl : l.records.length < 16) :
    (l.append x).form = true := by
  cases hr : l.records with
  | nil =>
    refine (form_iff_held (r := x.numbered l.nextSequence) (rest := []) (by simp [EventLog.append, hr])).mpr ?_
    have hd : counterDistance l.nextSequence (l.nextSequence + 1#16) = 1 := by
      rw [counterDistance_ne (by bv_omega)]
      unfold seqDistance
      bv_omega
    refine ⟨by simp, ?_, by simp, ?_⟩
    · simp [EventLog.append, Handover.numbered, seqDistance_self, hd]
    · simp [EventLog.append, Handover.numbered, hd]
  | cons r rest =>
    rw [hr] at hl
    have hh := (form_iff_held hr).mp h
    have hne := hh.next_ne hl
    have hnext := counterDistance_next hne
    refine (form_iff_held (r := r) (rest := rest ++ [x.numbered l.nextSequence]) (by simp [EventLog.append, hr])).mpr ?_
    simp only [EventLog.append]
    refine ⟨?_, ?_, ?_, ?_⟩
    · rw [← List.cons_append, List.pairwise_append]
      refine ⟨hh.rising, List.pairwise_singleton _ _, fun a ha b hb => ?_⟩
      rw [List.mem_singleton.mp hb]
      exact counterDistance_ne hne ▸ hh.below a ha
    · intro a ha
      rw [hnext]
      rw [← List.cons_append, List.mem_append, List.mem_singleton] at ha
      rcases ha with ha | rfl
      · exact Nat.lt_succ_of_lt (hh.below a ha)
      · exact Nat.lt_succ_of_le (counterDistance_ne hne).ge
    · simpa using hl
    · have := hh.room
      simp only [List.length_cons, List.length_append, List.length_nil] at this ⊢
      omega

theorem form_drop {l : EventLog} (h : l.form = true) (hl : 16 ≤ l.records.length) : l.drop.form = true := by
  cases hr : l.records with
  | nil => simp [hr] at hl
  | cons r rest =>
    rw [drop_of_records_cons hr]
    have hh := (form_iff_held hr).mp h
    refine (form_iff_held (by exact hr)).mpr ?_
    dsimp only
    split
    · exact hh
    · rename_i hne
      rw [hr] at hl
      have hnext := counterDistance_next hne
      refine ⟨hh.rising, fun a ha => ?_, hh.bounded, ?_⟩
      · rw [hnext]; exact Nat.lt_succ_of_lt (hh.below a ha)
      · have hlt : seqDistance r.sequence l.nextSequence < 65536 := (l.nextSequence - r.sequence).isLt
        rw [hnext, counterDistance_ne hne]
        omega

theorem form_pop {l : EventLog} {r : LogRecord} {rest : List LogRecord} (h : l.form = true)
    (hr : l.records = r :: rest) : ({ l with records := rest } : EventLog).form = true := by
  cases rest with
  | nil => exact form_nil rfl
  | cons q rest =>
    have hh := (form_iff_held hr).mp h
    have hrise := List.pairwise_cons.mp hh.rising
    have hq : 0 < seqDistance r.sequence q.sequence := by
      have := hrise.1 q (by simp)
      rwa [seqDistance_self] at this
    have hqn := hh.below q (by simp)
    have hle : ∀ a ∈ q :: rest, seqDistance r.sequence q.sequence ≤ seqDistance r.sequence a.sequence := by
      intro a ha
      rcases List.mem_cons.mp ha with rfl | ha
      · exact le_rfl
      · exact ((List.pairwise_cons.mp hrise.2).1 a ha).le
    have hc := counterDistance_shift hq hqn
    refine (form_iff_held rfl).mpr ⟨?_, fun a ha => ?_, ?_, ?_⟩
    · refine hrise.2.imp_of_mem fun {a b} ha hb hab => ?_
      rw [seqDistance_shift (hle a ha), seqDistance_shift (hle b hb)]
      have := hle a ha
      omega
    · rw [seqDistance_shift (hle a ha), hc]
      have := hle a ha
      have := hh.below a (by simp [List.mem_cons.mp ha])
      omega
    · exact Nat.le_of_succ_le hh.bounded
    · have := hh.room
      rw [hc]
      simp only [List.length_cons] at this ⊢
      omega

/-! ### Records handed over -/

theorem logForm_handOver {s : State} (x : Handover) (h : s.log.form = true) : (s.handOver x).log.form = true := by
  by_cases hl : s.log.records.length < 16
  · rw [handOver_append hl]
    exact form_append x h hl
  · rw [handOver_drop (not_lt.mp hl)]
    exact form_drop h (not_lt.mp hl)

theorem logForm_deliver {s : State} (r : Request) (w : Word) (h : s.log.form = true) :
    (s.deliver r w).log.form = true := by
  have hc : (s.countResolution (s.resolveWord r)).log.form = true := by simpa using h
  simp only [State.deliver, State.beat_log, State.logTrap]
  split
  case h_4 => exact logForm_handOver _ hc
  all_goals exact hc

theorem logForm_serve (n : Nat) {s : State} (h : s.log.form = true) : (serve n s).log.form = true := by
  induction n generalizing s with
  | zero => exact h
  | succ n ih =>
    unfold serve
    split
    · exact h
    · split
      case h_4 => exact ih (logForm_deliver _ _ h)
      case h_5 => exact ih (logForm_deliver _ _ h)
      all_goals simpa using h

theorem logForm_accept {s : State} (p : Presentation) (h : s.log.form = true) : (s.accept p).log.form = true := by
  have hm : ∀ f, ((s.switchAtAccept p).setFetch f).log.form = true := fun _ => by simpa using h
  unfold State.accept
  split
  · split
    · simpa using h
    · exact logForm_serve 8 (hm _)
  · simpa using h

theorem logForm_romWriteEnds {s : State} (r : Request) (w fd : Word) (h : s.log.form = true) :
    (s.romWriteEnds r w fd).log.form = true := by
  have he : s.endRom.log.form = true := h
  simp only [State.romWriteEnds, State.nextWrite_log, State.beat_log, State.logShadow]
  split
  · exact h
  · exact logForm_handOver _ he

theorem logForm_fetchReadEnds {s : State} (c : FetchClaim) (h : s.log.form = true) :
    (s.fetchReadEnds c).log.form = true := by
  unfold State.fetchReadEnds
  dsimp only
  split
  · exact h
  · exact logForm_serve 8 (logForm_deliver _ _ h)

@[simp] theorem tick_log (s : State) : s.tick.log = s.log := by
  unfold State.tick
  dsimp only
  split <;> simp

@[simp] theorem targetReset_log (s : State) : s.targetReset.log = s.log := by simp [State.targetReset]

@[simp] theorem succeedSlot_log (s : State) (h : ImageHeader) : (s.succeedSlot h).log = s.log := by
  simp [State.succeedSlot]

theorem logForm_act {s t : State} (h : s.log.form = true) (a : Act s t) : t.log.form = true := by
  cases a with
  | quiet q => rwa [q.log]
  | pop hr => exact form_pop h hr
  | empty => exact form_nil rfl
  | accept _ => exact logForm_accept _ h
  | begin _ => exact logForm_serve 8 h
  | romRead w _ _ => exact logForm_serve 8 (logForm_deliver _ _ h)
  | romWrite _ _ _ => exact logForm_romWriteEnds _ _ _ h
  | fetchRead _ => exact logForm_fetchReadEnds _ h
  | fold _ hf => cases hf <;> simpa [sealDecided, wordFolded] using h
  | _ => simpa using h

/-- Settles O59: records are appended behind the counter, dropped at the limit, and taken from the oldest end. -/
theorem everyStepKeepsTheLog : Obligations.EveryStepKeepsTheLog := fun _ _ hs h =>
  step_keeps (fun s => s.log.form = true) (fun _ _ _ r => by rw [r.log]; rfl) (fun _ _ hs l => by rwa [l.log])
    (fun _ _ => logForm_act) hs h

end Sys2Proof.Proofs
end

section
/-! PROOF. The three tables: their form, their numbers and the empty table of generation 0 (R1, R8, R9, R12) are kept by
every act. -/

namespace Sys2Proof.Proofs

open Sys2Proof Sys2Proof.Machine

/-! ### Inserts -/

/-- What an insert that is taken has passed (R74 to R78). -/
structure InsertTaken (s : State) (q : InsertRequest) (e : Entry) (i : Nat) : Prop where
  unlocked : s.tables.stagedLock = false
  entry : q.entry = some e
  backed : segmentRefusal s e = none
  room : s.tables.staged.length < 32
  apart : ∀ f ∈ s.tables.staged, ¬ SharesAddress e f
  index : i = insertIndex s.tables.staged e

theorem insertTaken_of_answer {s : State} {q : InsertRequest} {e : Entry} {i : Nat}
    (h : insertAnswer s q = .taken e i) : InsertTaken s q e i := by
  unfold insertAnswer at h
  split at h
  · cases h
  · rename_i hl
    split at h
    · cases h
    · rename_i f hf
      split at h
      · cases h
      · rename_i hs
        split at h
        · cases h
        · rename_i hr
          split at h
          · cases h
          · rename_i ho
            cases h
            refine ⟨by simpa using hl, hf, hs, by simpa [Config.tableEntries] using hr, fun g hg hx => ?_, rfl⟩
            rw [overlapIndex, List.findIdx?_eq_none_iff] at ho
            exact absurd ((overlaps_iff _ _).mpr hx) (by simpa using ho g hg)

theorem body_offsetInRange {q : InsertRequest} {b : EntryBody} (h : q.body = some b) : b.offsetInRange = true := by
  unfold InsertRequest.body at h
  split at h
  · split at h
    · cases h
    · split at h
      · cases h
      · cases h
        rename_i ho
        simpa [EntryBody.offsetInRange] using ho
  · split at h
    · cases h; rfl
    · split at h
      · cases h; rfl
      · split at h
        · cases h; rfl
        · cases h

/-- R75: the entry a request asks for is in range, with hits 0. -/
theorem entry_inRange {q : InsertRequest} {e : Entry} (h : q.entry = some e) : e.InRange ∧ e.hits = 0 := by
  unfold InsertRequest.entry at h
  split at h
  · rename_i b a hb _
    split at h
    · rename_i hc
      obtain ⟨h1, h2, h3, h4⟩ := hc
      cases h
      refine ⟨⟨h2, h3, ?_, Nat.zero_le _, body_offsetInRange hb⟩, rfl⟩
      simp only [Entry.top, BitVec.toNat_ofNat]
      exact (Nat.add_le_add_right (Nat.mod_le _ _) _).trans h4
    · cases h
  · cases h

/-- R78: an entry that shares no address with the others goes where their bases pass its own. -/
theorem ordered_insert {es : List Entry} {e : Entry} (ho : Ordered es) (hl : ∀ f ∈ es, 1 ≤ f.length)
    (ha : ∀ f ∈ es, ¬ SharesAddress e f) : Ordered (es.insertIdx (insertIndex es e) e) := by
  induction es with
  | nil => simp [insertIndex, Ordered]
  | cons f es ih =>
    have hf := List.pairwise_cons.mp ho
    have hfa := ha f (by simp)
    have hfl := hl f (by simp)
    by_cases hb : f.base.toNat < e.base.toNat
    · have hi : insertIndex (f :: es) e = insertIndex es e + 1 := by simp [insertIndex, hb]
      rw [hi, List.insertIdx_succ_cons]
      refine List.pairwise_cons.mpr ⟨fun g hg => ?_,
        ih hf.2 (fun g hg => hl g (by simp [hg])) fun g hg => ha g (by simp [hg])⟩
      rcases List.eq_or_mem_of_mem_insertIdx hg with rfl | hg
      · unfold SharesAddress at hfa
        unfold Entry.top
        omega
      · exact hf.1 g hg
    · have hbelow : ∀ g ∈ f :: es, ¬ g.base.toNat < e.base.toNat := by
        intro g hg
        rcases List.mem_cons.mp hg with rfl | hg
        · exact hb
        · have := hf.1 g hg
          unfold Entry.top at this
          omega
      have hi : insertIndex (f :: es) e = 0 := List.countP_eq_zero.mpr fun g hg => by simpa using hbelow g hg
      rw [hi, List.insertIdx_zero]
      refine List.pairwise_cons.mpr ⟨fun g hg => ?_, ho⟩
      have hga := ha g hg
      have hgl := hl g hg
      have hgb := hbelow g hg
      unfold SharesAddress at hga
      unfold Entry.top
      omega

theorem insertIndex_le (es : List Entry) (e : Entry) : insertIndex es e ≤ es.length := List.countP_le_length

theorem tableForm_insert {es : List Entry} {e : Entry} (h : TableForm es) (he : e.InRange) (hn : es.length < 32)
    (ha : ∀ f ∈ es, ¬ SharesAddress e f) : TableForm (es.insertIdx (insertIndex es e) e) := by
  obtain ⟨-, hr, ho⟩ := h
  refine ⟨?_, fun f hf => ?_, ordered_insert ho (fun f hf => (hr f hf).1) ha⟩
  · rw [List.length_insertIdx_of_le_length (insertIndex_le _ _)]
    exact hn
  · rcases List.eq_or_mem_of_mem_insertIdx hf with rfl | hf
    · exact he
    · exact hr f hf

theorem tableForm_eraseIdx {es : List Entry} (i : Nat) (h : TableForm es) : TableForm (es.eraseIdx i) :=
  ⟨(List.length_eraseIdx_le _ _).trans h.1, fun e he => h.2.1 e (List.mem_of_mem_eraseIdx he),
    h.2.2.sublist (List.eraseIdx_sublist _ _)⟩

theorem tableForm_nil : TableForm [] := ⟨Nat.zero_le _, fun _ h => absurd h List.not_mem_nil, List.Pairwise.nil⟩

/-! ### Switch numbers (R12) -/

theorem nextNumber_ne_zero (g : Generation) : nextNumber g ≠ 0 := by
  unfold nextNumber
  split <;> bv_omega

theorem nextNumber_ne_self (g : Generation) : nextNumber g ≠ g := by
  unfold nextNumber
  split <;> bv_omega

theorem switchNumber_ne_zero (counter live : Generation) : switchNumber counter live ≠ 0 := by
  unfold switchNumber
  split <;> exact nextNumber_ne_zero _

theorem switchNumber_ne_live (counter live : Generation) : switchNumber counter live ≠ live := by
  unfold switchNumber
  split
  · rename_i h
    rw [← h]
    exact nextNumber_ne_self _
  · assumption

/-! ### The forms together -/

/-- The tables' form, their numbers, and the empty table of generation 0. -/
abbrev TablesWell (t : TableStore) : Prop := TablesForm t ∧ NumbersDiffer t ∧ ZeroEmpty t

theorem tablesWell_reset : TablesWell tablesReset :=
  ⟨⟨tableForm_nil, tableForm_nil, tableForm_nil, fun _ h => absurd h List.not_mem_nil⟩, nofun, fun _ => rfl, nofun⟩

/-- The tables with another STAGED, whatever its lock. -/
theorem tablesWell_staged {t : TableStore} {es : List Entry} {b : Bool} (h : TablesWell t) (he : TableForm es)
    (hz : ∀ e ∈ es, e.hits = 0) : TablesWell { t with staged := es, stagedLock := b } := by
  obtain ⟨⟨-, hlive, hprior, -⟩, hn, hz'⟩ := h
  exact ⟨⟨he, hlive, hprior, hz⟩, hn, hz'⟩

theorem tablesWell_hitsOnly {t u : TableStore} (h : TablesWell t) (hu : HitsOnly t u) : TablesWell u := by
  obtain ⟨⟨hs, hlive, hprior, hh⟩, hn, hz, hzp⟩ := h
  have hp : u.priorEntries = t.priorEntries := by simp only [TableStore.priorEntries, hu.prior]
  have hb : HitsBounded t.live.entries := ((tableForm_iff _).mp hlive).2
  refine ⟨⟨hu.staged ▸ hs, tableForm_of_unhit _ _ hlive hu.entries (hu.bounded hb), hp ▸ hprior, hu.staged ▸ hh⟩,
    ?_, fun hg => ?_, ?_⟩
  · rw [NumbersDiffer, hu.prior, hu.generation]; exact hn
  · have he := hu.entries
    rw [hz (hu.generation ▸ hg)] at he
    simpa using he
  · rw [hu.prior]; exact hzp

theorem tablesWell_switch {t : TableStore} (h : TablesWell t) (counter : Generation) :
    TablesWell
      { staged := [], stagedLock := false
        live := { entries := t.staged.map Entry.unhit, generation := switchNumber counter t.live.generation }
        prior := some t.live } := by
  obtain ⟨⟨hs, hlive, -, -⟩, -, hz, -⟩ := h
  refine ⟨⟨tableForm_nil, tableForm_unhit _ hs, hlive, fun _ h => absurd h List.not_mem_nil⟩, ?_,
    fun hg => absurd hg (switchNumber_ne_zero _ _), ?_⟩
  · rintro p ⟨⟩
    exact (switchNumber_ne_live _ _).symm
  · rintro p ⟨⟩
    exact hz

theorem tablesWell_exchange {t : TableStore} {p : NumberedTable} (h : TablesWell t) (hp : t.prior = some p) :
    TablesWell { t with live := p, prior := some t.live } := by
  obtain ⟨⟨hs, hlive, hprior, hh⟩, hn, hz, hzp⟩ := h
  have he : t.priorEntries = p.entries := by simp only [TableStore.priorEntries, hp]; rfl
  refine ⟨⟨hs, he ▸ hprior, hlive, hh⟩, ?_, hzp p hp, ?_⟩
  · rintro q ⟨⟩
    exact (hn p hp).symm
  · rintro q ⟨⟩
    exact hz

theorem tablesWell_revertTables {s : State} (h : TablesWell s.tables) : TablesWell s.revertTables.tables := by
  unfold State.revertTables
  split
  · exact h
  · exact tablesWell_exchange h ‹_›

theorem tablesWell_movements : KeptByMovements fun s => TablesWell s.tables where
  takeSwitch s c h _ := by rw [State.takeSwitch_tables]; exact tablesWell_switch h _
  takeRevert s o h _ := by rw [State.takeRevert_tables]; exact tablesWell_revertTables h

theorem tablesWell_place {s : State} {q : InsertRequest} {e : Entry} {i : Nat} (h : TablesWell s.tables)
    (ha : insertAnswer s q = .taken e i) : TablesWell (s.placeEntry e i).tables := by
  have ht := insertTaken_of_answer ha
  obtain ⟨hr, hz⟩ := entry_inRange ht.entry
  rw [State.placeEntry_tables, ht.index]
  refine tablesWell_staged h (tableForm_insert h.1.1 hr ht.room ht.apart) fun f hf => ?_
  rcases List.eq_or_mem_of_mem_insertIdx hf with rfl | hf
  · exact hz
  · exact h.1.2.2.2 f hf

theorem hitsOnly_fetchReadEnds (s : State) (c : FetchClaim) : HitsOnly s.tables (s.fetchReadEnds c).tables := by
  unfold State.fetchReadEnds
  dsimp only
  split
  · exact HitsOnly.rfl' _
  · exact (hitsOnly_deliver s.freePort _ _).trans' (hitsOnly_serve _ _)

/-- R171: a failed slot leaves the tables at their reset values. -/
theorem failSlot_tables (s : State) (r : SlotResult) (i : Nat) : (s.failSlot r i).tables = tablesReset := by
  unfold State.failSlot State.fallBack
  dsimp only
  split <;> rfl

@[simp] theorem romWriteEnds_tables (s : State) (r : Request) (w fd : Word) :
    (s.romWriteEnds r w fd).tables = s.tables := by
  simp [State.romWriteEnds]

theorem tablesWell_folded {s t : State} {j : CrcJob} (h : TablesWell s.tables) (hf : Folded s j t) :
    TablesWell t.tables := by
  cases hf with
  | failed _ _ _ _ => rw [State.failRecord, failSlot_tables]; exact tablesWell_reset
  | _ => exact h

theorem tablesWell_act {s t : State} (h : TablesWell s.tables) (a : Act s t) : TablesWell t.tables := by
  have hm := tablesWell_movements
  cases a with
  | quiet q => rwa [q.tables]
  | place ha => exact tablesWell_place h ha
  | remove _ =>
    rw [State.removeEntry_tables]
    exact tablesWell_staged h (tableForm_eraseIdx _ h.1.1) fun f hf => h.1.2.2.2 f (List.mem_of_mem_eraseIdx hf)
  | clear =>
    rw [State.clearStaged_tables]
    exact tablesWell_staged h tableForm_nil fun _ h => absurd h List.not_mem_nil
  | copy _ =>
    rw [State.addEntries_tables]
    refine tablesWell_staged h (tableForm_unhit _ h.1.2.1) fun f hf => ?_
    obtain ⟨g, -, rfl⟩ := List.mem_map.mp hf
    rfl
  | hits hu => exact tablesWell_hitsOnly h hu
  | commit c _ _ => exact hm.settle (s := s.recordCommit c) h
  | abort _ => exact h
  | revert _ _ _ => exact hm.settle h
  | tick => exact hm.tick (by rw [State.tickTrial_tables]; exact h)
  | move _ => exact hm.takeMovement h
  | targetReset =>
    exact hm.targetReset (by exact h) fun u hu _ => by rwa [State.countReset_tables]
  | accept _ => exact tablesWell_hitsOnly (hm.switchAtAccept h _) (hitsOnly_accept _ _)
  | begin _ => exact tablesWell_hitsOnly h (hitsOnly_serve _ _)
  | romRead w _ _ =>
    exact tablesWell_hitsOnly (tablesWell_hitsOnly (by exact h) (hitsOnly_deliver _ _ _)) (hitsOnly_serve _ _)
  | fetchRead _ => exact tablesWell_hitsOnly h (hitsOnly_fetchReadEnds _ _)
  | fold _ hf => exact tablesWell_folded h hf
  | fail _ _ _ =>
    rw [failSlot_tables]
    exact tablesWell_reset
  | succeed _ _ => exact hm.settle (by exact h)
  | _ => simpa using h

/-- Settles O56: staged edits keep the order, movements exchange well-formed tables under fresh numbers, and serving
changes counts alone. -/
theorem everyStepKeepsTheTables : Obligations.EveryStepKeepsTheTables := fun _ _ hs h =>
  step_keeps (fun s => TablesWell s.tables) (fun _ _ _ r => by rw [r.tables]; exact tablesWell_reset)
    (fun _ _ hs l => by rwa [l.tables]) (fun _ _ => tablesWell_act) hs h

end Sys2Proof.Proofs
end

section
/-! PROOF. What an act does to the descriptors and the data pointer: the runs are of no two owners, the pointer stays in
range (R43, R44, R54), and every reference is counted (R51 to R53). -/

namespace Sys2Proof.Proofs

open Sys2Proof Sys2Proof.Machine

/-! ### Descriptors after one change -/

theorem segment_congr {s t : State} (h : t.mem.segments = s.mem.segments) (k : Handle) : t.segment k = s.segment k :=
  State.segment_congr t s h k

theorem isFree_iff_run {g : Segment} : g.isFree = false ↔ g.run ≠ none := by
  cases g <;> simp [Segment.isFree, Segment.run]

theorem segment_memReset {s : State} {m : List Host.Cell} (h : s.mem = { memReset with ram := m }) (k : Handle) :
    s.segment k = .free := by
  simp [State.segment, h, memReset]

theorem segment_resetTo {s t : State} (r : ResetTo s t) (k : Handle) : t.segment k = .free := by
  rcases r.mem with e | e
  · exact segment_memReset (m := memReset.ram) e k
  · exact segment_memReset e k

theorem pointer_resetTo {s t : State} (r : ResetTo s t) : t.mem.pointer = none := by
  rcases r.mem with e | e <;> rw [e] <;> rfl

/-- R171: a failed slot leaves patch memory at its reset values, with the RAM content kept. -/
theorem failSlot_mem (s : State) (r : SlotResult) (i : Nat) :
    (s.failSlot r i).mem = { memReset with ram := s.mem.ram } := by
  unfold State.failSlot
  simp [State.rollback, PatchMemory.rollback]

/-- R50: what SEG_FREE leaves of the descriptor. -/
def freed (g : Segment) : Segment :=
  match g with
  | .free => .free
  | .opened _ => .free
  | .sealing r n => .sealing r n
  | .sealed r d => if d.references = 0 then .free else .condemned r d
  | .condemned r d => .condemned r d

theorem segment_freeSegment (s : State) (h k : Handle) :
    (s.freeSegment h).segment k = if k = h then freed (s.segment h) else s.segment k := by
  unfold State.freeSegment
  by_cases e : k = h
  · subst e
    split
    case h_4 => split <;> simp [*, freed, State.segment_releaseSegment, State.segment_setSegment]
    all_goals simp [*, freed, State.segment_releaseSegment]
  · split
    case h_4 => split <;> simp [e, State.segment_releaseSegment, State.segment_setSegment]
    all_goals simp [e, State.segment_releaseSegment]

/-- R50: the pointer is unset where SEG_FREE changes the descriptor it stands on. -/
theorem pointer_freeSegment (s : State) (h : Handle) {p : DataPointer} (hp : (s.freeSegment h).mem.pointer = some p) :
    s.mem.pointer = some p ∧ (p.handle = h → freed (s.segment h) = s.segment h) := by
  have hoff : ∀ t : State, (t.unsetPointerOn h).mem.pointer = some p → t.mem.pointer = some p ∧ p.handle ≠ h := by
    intro t ht
    unfold State.unsetPointerOn at ht
    split at ht
    · rename_i hn
      rw [hn] at ht
      cases ht
    · rename_i q hq
      split at ht
      · cases ht
      · rw [hq] at ht ⊢
        cases ht
        exact ⟨rfl, ‹_›⟩
  unfold State.freeSegment State.releaseSegment at hp
  split at hp
  case h_1 hg => exact ⟨hp, fun _ => by simp [hg, freed]⟩
  case h_2 => exact ⟨(hoff _ hp).1, fun e => absurd e (hoff _ hp).2⟩
  case h_3 hg => exact ⟨hp, fun _ => by simp [hg, freed]⟩
  case h_4 => split at hp <;> exact ⟨(hoff _ hp).1, fun e => absurd e (hoff _ hp).2⟩
  case h_5 hg => exact ⟨hp, fun _ => by simp [hg, freed]⟩

theorem segment_sealDecided (s : State) (j : CrcJob) (crc : Crc32) (k : Handle) :
    (sealDecided s j crc).segment k =
      if k = j.handle then (s.segment j.handle).afterSeal crc j.expected else s.segment k :=
  State.segment_setSegment s j.handle k _

theorem pointer_switchedState (s : State) (c : PendingCommit) (n : Generation) :
    (switchedState s c n).mem.pointer =
      if freesPointed s s.tables.priorEntries then none else s.mem.pointer := rfl

theorem segment_takeSwitch (s : State) (c : PendingCommit) (k : Handle) :
    (s.takeSwitch c).segment k = (s.segment k).lowered (namedBy s.tables.priorEntries k) := by
  rw [State.takeSwitch_eq]
  simp [State.segment, switchedState, memoryLowered, loweredBy]

/-! ### Runs and the pointer (R43, R44, R54) -/

/-- R43, R44, R54 together. -/
abbrev RunsWell (s : State) : Prop := RunsForm s ∧ PointerForm s

/-- No handle gains a run: each keeps its own or loses it; the pointer stays as it was where its run stays, or is unset. -/
structure RunsKept (s t : State) : Prop where
  runs : ∀ h, (t.segment h).run = (s.segment h).run ∨ (t.segment h).run = none
  pointer : ∀ p ∈ t.mem.pointer, p ∈ s.mem.pointer ∧ (t.segment p.handle).run = (s.segment p.handle).run

theorem RunsKept.well {s t : State} (k : RunsKept s t) (h : RunsWell s) : RunsWell t := by
  obtain ⟨⟨hr, hd⟩, hp⟩ := h
  refine ⟨⟨fun a => ?_, fun a b hab => ?_⟩, fun p hp' => ?_⟩
  · rcases k.runs a with e | e
    · rw [e]; exact hr a
    · rw [e]; rfl
  · have := hd a b hab
    unfold Segment.apart at this ⊢
    rcases k.runs a with e | e <;> rcases k.runs b with f | f <;> rw [e, f]
    · exact this
    all_goals split <;> simp_all
  · obtain ⟨hps, he⟩ := k.pointer p hp'
    have := hp p hps
    simpa [Segment.isFree, Segment.capacity, he] using this

theorem runsKept_of_eq {s t : State} (hs : t.mem.segments = s.mem.segments) (hp : t.mem.pointer = s.mem.pointer) :
    RunsKept s t where
  runs h := .inl (by rw [segment_congr hs])
  pointer p h := ⟨hp ▸ h, by rw [segment_congr hs]⟩

/-- Every descriptor keeps its run. -/
theorem runsKept_of_runs {s t : State} (hs : ∀ h, (t.segment h).run = (s.segment h).run)
    (hp : t.mem.pointer = s.mem.pointer) : RunsKept s t :=
  ⟨fun h => .inl (hs h), fun _ h => ⟨hp ▸ h, hs _⟩⟩

theorem runsKept_setSegment {s t : State} {h : Handle} {g : Segment} (hg : g.run = (s.segment h).run)
    (ht : ∀ k, t.segment k = if k = h then g else s.segment k) (hp : t.mem.pointer = s.mem.pointer) : RunsKept s t := by
  refine runsKept_of_runs (fun k => ?_) hp
  rw [ht]
  split
  · next e => rw [hg, e]
  · rfl

theorem runsKept_all_free {s t : State} (hs : ∀ h, t.segment h = .free) (hp : t.mem.pointer = none) : RunsKept s t :=
  ⟨fun h => .inr (by rw [hs]; rfl), fun p h => by rw [hp] at h; cases h⟩

theorem run_lowered (g : Segment) (k : Nat) : (g.lowered k).run = g.run ∨ (g.lowered k).run = none := by
  cases g with
  | condemned r d =>
    unfold Segment.lowered
    dsimp only
    split
    · exact .inl rfl
    · split
      · exact .inr rfl
      · exact .inl rfl
  | _ => exact .inl rfl

theorem run_raised (g : Segment) (k : Nat) : (g.raised k).run = g.run := by cases g <;> rfl

theorem run_afterSeal (g : Segment) (c e : Crc32) : (g.afterSeal c e).run = g.run := by
  unfold Segment.afterSeal
  cases g with
  | sealing r n => dsimp only; split <;> rfl
  | _ => rfl

theorem run_freed (g : Segment) : (freed g).run = g.run ∨ (freed g).run = none := by
  cases g with
  | opened r => exact .inr rfl
  | sealed r d =>
    unfold freed
    dsimp only
    split
    · exact .inr rfl
    · exact .inl rfl
  | _ => exact .inl rfl

/-- R53, R54: decrement claims free a CONDEMNED segment and then unset the pointer on it. -/
theorem runsKept_lowered {s t : State} {es : List Entry} (h : t.mem = memoryLowered s es) : RunsKept s t := by
  have hseg : ∀ k, t.segment k = (s.segment k).lowered (namedBy es k) := fun k => by
    simp [State.segment, h, memoryLowered, loweredBy]
  refine ⟨fun k => by rw [hseg]; exact run_lowered _ _, fun p hp => ?_⟩
  have hp : (if freesPointed s es then none else s.mem.pointer) = some p := by rw [h] at hp; exact hp
  split at hp
  · cases hp
  · rename_i hf
    refine ⟨hp, ?_⟩
    rw [hseg]
    rcases run_lowered (s.segment p.handle) (namedBy es p.handle) with e | e
    · exact e
    · by_contra hne
      rw [e] at hne
      refine hf ?_
      unfold freesPointed
      rw [hp]
      simp [Segment.isFree, e, Option.isSome_iff_ne_none, Ne.symm hne]

theorem runsKept_addEntries (s : State) (es : List Entry) : RunsKept s (s.addEntries es) :=
  runsKept_of_runs (fun h => by rw [State.segment_addEntries, run_raised]) (by simp)

theorem runsKept_takeSwitch (s : State) (c : PendingCommit) : RunsKept s (s.takeSwitch c) :=
  runsKept_lowered (es := s.tables.priorEntries) (by rw [State.takeSwitch_eq]; rfl)

theorem runsKept_freeSegment (s : State) (h : Handle) : RunsKept s (s.freeSegment h) where
  runs k := by
    rw [segment_freeSegment]
    split
    · next e => rw [e]; exact run_freed _
    · exact .inl rfl
  pointer p hp := by
    obtain ⟨hs, he⟩ := pointer_freeSegment s h hp
    refine ⟨hs, ?_⟩
    rw [segment_freeSegment]
    split
    · next e => rw [he e, e]
    · rfl

theorem runsWell_movements : KeptByMovements RunsWell where
  takeSwitch s c h _ := (runsKept_takeSwitch s c).well h
  takeRevert s o h _ := (runsKept_of_eq (by simp) (by simp)).well h

/-! ### Allocation (R43, R46, R47) -/

/-- What an allocation that is taken gives: a FREE handle, and a run of free granules within patch RAM. -/
theorem allocAnswer_gives {s : State} {k : Nat} {h : Handle} {r : Run} (e : allocAnswer s k = .taken h r) :
    s.segment h = .free ∧ r.count = k ∧ 1 ≤ k ∧ RunIsFree s r.first k := by
  unfold allocAnswer at e
  split at e
  · cases e
  · rename_i hk
    split at e
    · cases e
    · rename_i f hf
      split at e
      · cases e
      · rename_i g hg
        cases e
        rw [firstFit] at hg
        have hfree := List.find?_some hg
        have hmem := List.mem_of_find?_eq_some hg
        simp only [List.mem_range, Config.granules] at hmem
        rw [lowestFreeHandle] at hf
        exact ⟨(isFree_eq_true_iff _).mp (List.find?_some (p := fun k => (s.segment k).isFree) hf), rfl, by omega, by simp only [Config.granules]; omega,
          (runFree_iff _ _ _).mp hfree⟩

/-- R43: a run of free granules lies apart from every run that is owned. -/
theorem apart_of_runIsFree {s : State} {r q : Run} {h : Handle} (hf : RunIsFree s r.first r.count)
    (hr : 1 ≤ r.count) (hq : (s.segment h).run = some q) (hi : q.inRange = true) : r.apart q = true := by
  by_contra hn
  simp only [Run.apart, Bool.or_eq_true, decide_eq_true_eq, not_or, not_le] at hn
  simp only [Run.inRange, Bool.and_eq_true, decide_eq_true_eq] at hi
  have hg := hf.2 (max r.first q.first - r.first) (by omega) h
  unfold Segment.owns at hg
  rw [hq] at hg
  simp only [Bool.and_eq_false_iff, decide_eq_false_iff_not] at hg
  omega

theorem apart_comm (a b : Segment) : a.apart b = b.apart a := by
  unfold Segment.apart
  cases a.run with
  | none => cases b.run <;> rfl
  | some r =>
    cases b.run with
    | none => rfl
    | some q => exact Bool.or_comm _ _

theorem runsWell_alloc {s t : State} {k : Nat} {h : Handle} {r : Run} (hs : RunsWell s) (e : allocAnswer s k = .taken h r)
    (ht : ∀ j, t.segment j = if j = h then .opened r else s.segment j) (hp : t.mem.pointer = s.mem.pointer) :
    RunsWell t := by
  obtain ⟨hfree, rfl, hk, hrun⟩ := allocAnswer_gives e
  obtain ⟨⟨hr, hd⟩, hptr⟩ := hs
  have hnew : ∀ j, (s.segment j).apart (.opened r) = true := by
    intro j
    rw [apart_comm]
    unfold Segment.apart
    cases hq : (s.segment j).run with
    | none => rfl
    | some q => exact apart_of_runIsFree hrun hk hq (by simpa [hq] using hr j)
  refine ⟨⟨fun a => ?_, fun a b hab => ?_⟩, fun p hp' => ?_⟩
  · rw [ht]
    split
    · have := hrun.1
      simp only [Segment.run, Option.all_some, Run.inRange, Bool.and_eq_true, decide_eq_true_eq]
      exact ⟨hk, this⟩
    · exact hr a
  · rw [ht, ht]
    split
    · next ea =>
      rw [if_neg fun eb => hab (ea.trans eb.symm), apart_comm]
      exact hnew b
    · split
      · exact hnew a
      · exact hd a b hab
  · rw [hp] at hp'
    have := hptr p hp'
    rw [ht, if_neg]
    · exact this
    · intro ep
      rw [ep, hfree] at this
      cases this.1

theorem runsWell_folded {s t : State} {j : CrcJob} (h : RunsWell s) (hf : Folded s j t) : RunsWell t := by
  have hdec : ∀ crc, RunsWell (sealDecided s j crc) := fun crc =>
    (runsKept_setSegment (run_afterSeal _ _ _) (segment_sealDecided s j crc) rfl).well h
  cases hf with
  | next rem _ => exact (runsKept_of_eq (s := s) rfl rfl).well h
  | record crc _ _ _ => exact (runsKept_of_eq rfl rfl).well (hdec crc)
  | failed crc _ _ _ =>
    exact (runsKept_all_free (segment_memReset (failSlot_mem _ _ _)) (by rw [failSlot_mem]; rfl)).well
      (hdec crc)
  | answered crc _ _ _ _ => exact (runsKept_of_eq rfl rfl).well (hdec crc)

/-- R54: another pointer, on a segment that is not FREE. -/
theorem runsWell_point {s t : State} {p : DataPointer} (h : RunsWell s) (hs : t.mem.segments = s.mem.segments)
    (ht : t.mem.pointer = some p) (hf : (s.segment p.handle).isFree = false)
    (ho : p.offset ≤ (s.segment p.handle).capacity) : RunsWell t := by
  have hseg := segment_congr hs
  refine ⟨?_, fun q hq => ?_⟩
  · simp only [RunsForm, hseg]; exact h.1
  · rw [ht] at hq
    cases hq
    rw [hseg]
    exact ⟨hf, ho⟩

@[simp] theorem romWriteEnds_mem (s : State) (r : Request) (w fd : Word) : (s.romWriteEnds r w fd).mem = s.mem := by
  simp [State.romWriteEnds]

@[simp] theorem romReadEnds_segments (s : State) (r : Request) (w : Word) :
    (s.romReadEnds r w).mem.segments = s.mem.segments := by
  simp [State.romReadEnds]

@[simp] theorem romReadEnds_pointer (s : State) (r : Request) (w : Word) :
    (s.romReadEnds r w).mem.pointer = s.mem.pointer := by
  simp [State.romReadEnds]

@[simp] theorem fetchReadEnds_segments (s : State) (c : FetchClaim) :
    (s.fetchReadEnds c).mem.segments = s.mem.segments := by
  unfold State.fetchReadEnds
  dsimp only
  split <;> simp

@[simp] theorem fetchReadEnds_pointer (s : State) (c : FetchClaim) :
    (s.fetchReadEnds c).mem.pointer = s.mem.pointer := by
  unfold State.fetchReadEnds
  dsimp only
  split <;> simp

theorem accept_segments (s : State) (p : Presentation) :
    (s.accept p).mem.segments = (s.switchAtAccept p).mem.segments := by
  unfold State.accept
  dsimp only
  split
  · split <;> simp
  · simp

theorem accept_pointer (s : State) (p : Presentation) : (s.accept p).mem.pointer = (s.switchAtAccept p).mem.pointer := by
  unfold State.accept
  dsimp only
  split
  · split <;> simp
  · simp

theorem runsWell_act {s t : State} (h : RunsWell s) (a : Act s t) : RunsWell t := by
  have hm := runsWell_movements
  cases a with
  | quiet q => exact (runsKept_of_eq q.segments q.pointer).well h
  | alloc _ e => exact runsWell_alloc h e (fun j => State.segment_setSegment _ _ _ _) rfl
  | point hf ho => exact runsWell_point h rfl rfl hf ho
  | sealStart _ _ hs _ _ =>
    exact (runsKept_setSegment (by rw [hs]; rfl) (fun j => State.segment_setSegment _ _ _ _) rfl).well h
  | reopen _ hs _ =>
    exact (runsKept_setSegment (by rw [hs]; rfl) (fun j => State.segment_setSegment _ _ _ _) rfl).well h
  | free k _ => exact (runsKept_freeSegment s k).well h
  | fold _ hf => exact runsWell_folded h hf
  | place _ => exact (runsKept_addEntries _ [_]).well ((runsKept_of_eq (s := s) rfl rfl).well h)
  | remove _ => exact (runsKept_lowered (State.mem_dropEntry _ _)).well ((runsKept_of_eq (s := s) rfl rfl).well h)
  | clear => exact (runsKept_lowered (es := s.tables.staged) (by rw [State.clearStaged_eq])).well h
  | copy _ => exact (runsKept_addEntries _ _).well ((runsKept_of_eq (s := s) rfl rfl).well h)
  | commit c _ _ => exact hm.settle ((runsKept_of_eq (s := s) rfl rfl).well h)
  | revert _ _ _ => exact hm.settle ((runsKept_of_eq (s := s) rfl rfl).well h)
  | tick => exact hm.tick ((runsKept_of_eq (s := s) (by simp) (by simp)).well h)
  | move _ => exact hm.takeMovement h
  | targetReset =>
    exact hm.targetReset ((runsKept_of_eq (s := s) rfl rfl).well h) fun u hu _ =>
      (runsKept_of_eq (by simp) (by simp)).well hu
  | accept _ =>
    exact (runsKept_of_eq (accept_segments _ _) (accept_pointer _ _)).well (hm.switchAtAccept h _)
  | fail r i _ => exact (runsKept_all_free (segment_memReset (failSlot_mem _ _ _)) (by rw [failSlot_mem]; rfl)).well h
  | segment _ _ _ _ e => exact runsWell_alloc h e (fun j => State.segment_setSegment _ _ _ _) rfl
  | lastWord w _ _ hs _ =>
    exact (runsKept_setSegment (s := s) (by rw [hs]; rfl) (fun j => State.segment_setSegment _ _ _ _) rfl).well h
  | succeed _ _ => exact hm.settle ((runsKept_of_eq (s := s) rfl rfl).well h)
  | _ => exact (runsKept_of_eq (s := s) (by simp) (by simp)).well h

/-- Settles O58: an allocation takes free granules, and every other act leaves each run where it is or gives it back. -/
theorem everyStepKeepsTheRunsAndThePointer : Obligations.EveryStepKeepsTheRunsAndThePointer := fun _ _ hs h =>
  step_keeps RunsWell (fun _ _ hs r => (runsKept_all_free (segment_resetTo r) (pointer_resetTo r)).well hs)
    (fun _ _ hs l => (runsKept_of_eq (by rw [l.mem]) (by rw [l.mem])).well hs) (fun _ _ => runsWell_act) hs h

end Sys2Proof.Proofs
end

section
/-! PROOF. The reference counts, what every entry stands on, and the CONDEMNED segments that are still named (R2, R51 to
R53), kept by every act. -/

namespace Sys2Proof.Proofs

open Sys2Proof Sys2Proof.Machine

/-- R2, R51, R53 together. -/
abbrev Backing (s : State) : Prop := ReferencesCounted s ∧ EntriesBacked s ∧ CondemnedNamed s

/-! ### Lists of entries -/

theorem segment?_unhit (e : Entry) : e.unhit.segment? = e.segment? := rfl

theorem namedBy_pos {es : List Entry} {h : Handle} : 0 < namedBy es h ↔ ∃ e ∈ es, e.segment? = some h := by
  simp [namedBy, List.countP_pos_iff]

theorem namedBy_perm {es fs : List Entry} (h : es.Perm fs) (k : Handle) : namedBy es k = namedBy fs k :=
  h.countP_eq _

/-- Entries that differ in their counts alone name the same segments. -/
theorem namedBy_of_unhit {es fs : List Entry} (h : es.map Entry.unhit = fs.map Entry.unhit) (k : Handle) :
    namedBy es k = namedBy fs k := by
  rw [← namedBy_unhit es, h, namedBy_unhit]

/-- Each entry of the one list stands in the other, apart from its count. -/
abbrev Among (es fs : List Entry) : Prop := ∀ e ∈ es, ∃ f ∈ fs, f.unhit = e.unhit

theorem among_of_subset {es fs : List Entry} (h : ∀ e ∈ es, e ∈ fs) : Among es fs := fun e he => ⟨e, h e he, rfl⟩

theorem among_map_unhit {es fs : List Entry} (h : ∀ e ∈ es, e ∈ fs) : Among (es.map Entry.unhit) fs := by
  intro e he
  obtain ⟨f, hf, rfl⟩ := List.mem_map.mp he
  exact ⟨f, h f hf, rfl⟩

theorem among_of_unhit {es fs : List Entry} (h : es.map Entry.unhit = fs.map Entry.unhit) : Among es fs := by
  intro e he
  obtain ⟨f, hf, hfe⟩ := List.mem_map.mp (h ▸ List.mem_map_of_mem he : e.unhit ∈ fs.map Entry.unhit)
  exact ⟨f, hf, hfe⟩

theorem among_append {es fs gs : List Entry} (he : Among es gs) (hf : Among fs gs) : Among (es ++ fs) gs := by
  intro e h
  rcases List.mem_append.mp h with h | h
  · exact he e h
  · exact hf e h

theorem allEntries_subset_staged {t : TableStore} {e : Entry} (h : e ∈ t.staged) : e ∈ t.allEntries := by
  simp [TableStore.allEntries, h]

theorem allEntries_subset_live {t : TableStore} {e : Entry} (h : e ∈ t.live.entries) : e ∈ t.allEntries := by
  simp [TableStore.allEntries, h]

theorem allEntries_subset_prior {t : TableStore} {e : Entry} (h : e ∈ t.priorEntries) : e ∈ t.allEntries := by
  simp [TableStore.allEntries, h]

/-! ### What backs an entry -/

theorem entryBacked_unhit {s : State} {e f : Entry} (h : f.unhit = e.unhit) : entryBacked s f = entryBacked s e := by
  change entryBacked s f.unhit = entryBacked s e.unhit
  rw [h]

theorem entryBacked_iff {s : State} {e : Entry} :
    entryBacked s e = true ↔ ∀ h o, e.body = .replace h o →
      (s.segment h).isFixed = true ∧ o + e.length ≤ (s.segment h).sealedLength := by
  unfold entryBacked
  cases e.body <;> simp

theorem segment?_of_body {e : Entry} {h : Handle} {o : Nat} (hb : e.body = .replace h o) : e.segment? = some h := by
  unfold Entry.segment?
  rw [hb]

theorem body_of_segment? {e : Entry} {h : Handle} (hs : e.segment? = some h) : ∃ o, e.body = .replace h o := by
  unfold Entry.segment? at hs
  cases hb : e.body with
  | replace k o => rw [hb] at hs; cases hs; exact ⟨o, rfl⟩
  | _ => rw [hb] at hs; cases hs

theorem isFixed_of_references {g : Segment} (h : 0 < g.references) : g.isFixed = true := by
  cases g <;> simp_all [Segment.references, Segment.isFixed]

/-- The entries of a list are backed where each segment one of them names is as fixed, and sealed as long, as before. -/
theorem backed_of_among {s t : State} {es fs : List Entry} (ha : Among es fs) (hb : ∀ e ∈ fs, entryBacked s e = true)
    (hk : ∀ h, 0 < namedBy es h → (s.segment h).isFixed = true →
      (t.segment h).isFixed = true ∧ (t.segment h).sealedLength = (s.segment h).sealedLength) :
    ∀ e ∈ es, entryBacked t e = true := by
  intro e he
  obtain ⟨f, hf, hfe⟩ := ha e he
  have hs := (entryBacked_unhit hfe).symm.trans (hb f hf)
  rw [entryBacked_iff] at hs ⊢
  intro h o hbody
  obtain ⟨hfix, hlen⟩ := hs h o hbody
  obtain ⟨hfix', hlen'⟩ := hk h (namedBy_pos.mpr ⟨e, he, segment?_of_body hbody⟩) hfix
  exact ⟨hfix', hlen'.symm ▸ hlen⟩

/-- A segment that an entry names is SEALED or CONDEMNED. -/
theorem isFixed_of_named {s : State} {es : List Entry} {h : Handle} (hb : ∀ e ∈ es, entryBacked s e = true)
    (hn : 0 < namedBy es h) : (s.segment h).isFixed = true := by
  obtain ⟨e, he, hs⟩ := namedBy_pos.mp hn
  obtain ⟨o, hbody⟩ := body_of_segment? hs
  exact (entryBacked_iff.mp (hb e he) h o hbody).1

/-! ### Descriptors that keep their claims -/

/-- A descriptor change that no reference notices: the count stays, and where it is above zero the segment stays fixed at
its length. -/
structure ClaimsKept (g g' : Segment) : Prop where
  references : g'.references = g.references
  fixed : 0 < g.references → g'.isFixed = g.isFixed ∧ g'.sealedLength = g.sealedLength
  named : g.condemnedNamed = true → g'.condemnedNamed = true

theorem ClaimsKept.rfl' (g : Segment) : ClaimsKept g g := ⟨rfl, fun _ => ⟨rfl, rfl⟩, id⟩

/-- A descriptor without references is replaced by another without. -/
theorem claimsKept_of_zero {g g' : Segment} (h : g.references = 0) (h' : g'.references = 0)
    (hn : g'.condemnedNamed = true) : ClaimsKept g g' :=
  ⟨h'.trans h.symm, fun hp => absurd h (Nat.pos_iff_ne_zero.mp hp), fun _ => hn⟩

theorem claimsKept_afterSeal (g : Segment) (c e : Crc32) : ClaimsKept g (g.afterSeal c e) := by
  unfold Segment.afterSeal
  cases g with
  | sealing r n =>
    dsimp only
    split
    · exact claimsKept_of_zero rfl rfl rfl
    · exact claimsKept_of_zero rfl rfl rfl
  | _ => exact ClaimsKept.rfl' _

theorem claimsKept_freed (g : Segment) : ClaimsKept g (freed g) := by
  unfold freed
  cases g with
  | opened r => exact claimsKept_of_zero rfl rfl rfl
  | sealed r d =>
    dsimp only
    split
    · exact claimsKept_of_zero ‹_› rfl rfl
    · exact ⟨rfl, fun _ => ⟨rfl, rfl⟩, fun _ => by simpa [Segment.condemnedNamed] using Nat.pos_of_ne_zero ‹_›⟩
  | _ => exact ClaimsKept.rfl' _

/-- Tables that name the same segments, over descriptors that keep their claims. -/
theorem backing_kept {s t : State} (h : Backing s) (hk : ∀ k, ClaimsKept (s.segment k) (t.segment k))
    (hn : ∀ k, namedBy t.tables.allEntries k = namedBy s.tables.allEntries k)
    (ha : Among t.tables.allEntries s.tables.allEntries) : Backing t := by
  obtain ⟨hc, hb, hd⟩ := h
  refine ⟨fun k => ?_, backed_of_among ha hb fun k hp hf => ?_, fun k => (hk k).named (hd k)⟩
  · rw [(hk k).references, hn]
    exact hc k
  · rw [hn, ← hc k] at hp
    obtain ⟨e1, e2⟩ := (hk k).fixed hp
    exact ⟨e1 ▸ hf, e2⟩

theorem backing_tablesKept {s t : State} (h : Backing s) (hk : ∀ k, ClaimsKept (s.segment k) (t.segment k))
    (ht : t.tables = s.tables) : Backing t :=
  backing_kept h hk (fun _ => by rw [ht]) (by rw [ht]; exact among_of_subset fun _ => id)

theorem backing_of_eq {s t : State} (h : Backing s) (hs : t.mem.segments = s.mem.segments) (ht : t.tables = s.tables) :
    Backing t :=
  backing_tablesKept h (fun k => by rw [segment_congr hs]; exact ClaimsKept.rfl' _) ht

/-- The lock of STAGED carries no claim. -/
theorem backing_of_entries {s t : State} (h : Backing s) (hs : t.mem.segments = s.mem.segments)
    (ht : t.tables.allEntries = s.tables.allEntries) : Backing t :=
  backing_kept h (fun k => by rw [segment_congr hs]; exact ClaimsKept.rfl' _) (fun _ => by rw [ht])
    (by rw [ht]; exact among_of_subset fun _ => id)

theorem backing_setSegment {s t : State} {k : Handle} {g : Segment} (h : Backing s) (hg : ClaimsKept (s.segment k) g)
    (hs : ∀ j, t.segment j = if j = k then g else s.segment j) (ht : t.tables = s.tables) : Backing t := by
  refine backing_tablesKept h (fun j => ?_) ht
  rw [hs]
  split
  · next e => rw [e]; exact hg
  · exact ClaimsKept.rfl' _

/-- With empty tables and every descriptor FREE. -/
theorem backing_reset {t : State} (hs : ∀ k, t.segment k = .free) (ht : t.tables = tablesReset) : Backing t := by
  have he : t.tables.allEntries = [] := by rw [ht]; rfl
  refine ⟨fun k => ?_, fun e h => ?_, fun k => ?_⟩
  · rw [hs, he]; rfl
  · rw [he] at h; cases h
  · rw [hs]; rfl

/-! ### Claims of entries that leave and enter the tables -/

/-- R53: entries leave the tables, each with its decrement claim. -/
theorem backing_lowered {s t : State} {out : List Entry} (h : Backing s)
    (hs : ∀ k, t.segment k = (s.segment k).lowered (namedBy out k))
    (hn : ∀ k, namedBy t.tables.allEntries k + namedBy out k = namedBy s.tables.allEntries k)
    (ha : Among t.tables.allEntries s.tables.allEntries) : Backing t := by
  obtain ⟨hc, hb, hd⟩ := h
  refine ⟨fun k => ?_, backed_of_among ha hb fun k hp hf => ?_, fun k => ?_⟩
  · have h1 := hc k
    have h2 := hn k
    have h3 := hd k
    rw [hs]
    cases hg : s.segment k with
    | condemned r d =>
      rw [hg] at h1 h3
      simp only [Segment.references, Segment.condemnedNamed, decide_eq_true_eq] at h1 h3
      unfold Segment.lowered
      dsimp only
      split
      · simp only [Segment.references]; omega
      · split <;> simp only [Segment.references] <;> omega
    | _ =>
      rw [hg] at h1
      simp only [Segment.references, Segment.lowered] at h1 ⊢
      omega
  · have h1 := hc k
    have h2 := hn k
    rw [hs]
    cases hg : s.segment k with
    | condemned r d =>
      rw [hg] at h1
      simp only [Segment.references] at h1
      unfold Segment.lowered
      dsimp only
      split
      · exact ⟨rfl, rfl⟩
      · rw [if_neg (by omega)]
        exact ⟨rfl, rfl⟩
    | sealed r d => exact ⟨rfl, rfl⟩
    | _ => rw [hg] at hf; cases hf
  · have h3 := hd k
    rw [hs]
    cases hg : s.segment k with
    | condemned r d =>
      rw [hg] at h3
      unfold Segment.lowered
      dsimp only
      split
      · exact h3
      · split
        · rfl
        · simp only [Segment.condemnedNamed, decide_eq_true_eq]; omega
    | _ => rfl

/-- R52: backed entries enter the tables, each with its increment claim. -/
theorem backing_raised {s t : State} {into : List Entry} (h : Backing s)
    (hs : ∀ k, t.segment k = (s.segment k).raised (namedBy into k)) (hi : ∀ e ∈ into, entryBacked s e = true)
    (hn : ∀ k, namedBy t.tables.allEntries k = namedBy s.tables.allEntries k + namedBy into k)
    (ha : Among t.tables.allEntries (s.tables.allEntries ++ into)) : Backing t := by
  obtain ⟨hc, hb, hd⟩ := h
  have hb' : ∀ e ∈ s.tables.allEntries ++ into, entryBacked s e = true := fun e he =>
    (List.mem_append.mp he).elim (hb e) (hi e)
  have hzero : ∀ k, (s.segment k).isFixed = false → namedBy into k = 0 := fun k hf => by
    by_contra hne
    rw [isFixed_of_named hi (Nat.pos_of_ne_zero hne)] at hf
    cases hf
  refine ⟨fun k => ?_, backed_of_among ha hb' fun k _ hf => ?_, fun k => ?_⟩
  · have h1 := hc k
    have h2 := hn k
    have h3 := hzero k
    rw [hs]
    cases hg : s.segment k with
    | sealed r d => rw [hg] at h1; simp only [Segment.references, Segment.raised] at h1 ⊢; omega
    | condemned r d => rw [hg] at h1; simp only [Segment.references, Segment.raised] at h1 ⊢; omega
    | _ =>
      rw [hg] at h1 h3
      have h3 := h3 rfl
      simp only [Segment.references, Segment.raised] at h1 ⊢
      omega
  · rw [hs]
    cases hg : s.segment k with
    | sealed r d => exact ⟨rfl, rfl⟩
    | condemned r d => exact ⟨rfl, rfl⟩
    | _ => rw [hg] at hf; cases hf
  · have h3 := hd k
    rw [hs]
    cases hg : s.segment k with
    | condemned r d =>
      rw [hg] at h3
      simp only [Segment.raised, Segment.condemnedNamed, decide_eq_true_eq] at h3 ⊢
      omega
    | _ => rfl

/-! ### The acts -/

theorem namedBy_allEntries (t : TableStore) (k : Handle) :
    namedBy t.allEntries k = namedBy t.staged k + namedBy t.live.entries k + namedBy t.priorEntries k := by
  simp [TableStore.allEntries, namedBy_append, Nat.add_assoc]

/-- R76: the entry of an insert that is taken is backed. -/
theorem entryBacked_of_noRefusal {s : State} {e : Entry} (h : segmentRefusal s e = none) : entryBacked s e = true := by
  rw [entryBacked_iff]
  intro k o hb
  unfold segmentRefusal at h
  rw [hb] at h
  dsimp only at h
  split at h
  · rename_i g
    rw [g]
    split at h
    · cases h
    · exact ⟨rfl, not_lt.mp ‹_›⟩
  all_goals cases h

theorem backing_place {s : State} {q : InsertRequest} {e : Entry} {i : Nat} (h : Backing s)
    (ha : insertAnswer s q = .taken e i) : Backing (s.placeEntry e i) := by
  have ht := insertTaken_of_answer ha
  have hp : (s.tables.staged.insertIdx i e).Perm (e :: s.tables.staged) :=
    List.perm_insertIdx e _ (ht.index ▸ insertIndex_le _ _)
  refine backing_raised (into := [e]) h (fun k => ?_) (fun f hf => ?_) (fun k => ?_) ?_
  · exact State.segment_addEntries _ [e] k
  · rw [List.mem_singleton.mp hf]
    exact entryBacked_of_noRefusal ht.backed
  · rw [State.placeEntry_tables, namedBy_allEntries, namedBy_allEntries, namedBy_perm hp, namedBy_cons, namedBy_cons,
      namedBy_nil]
    simp only [TableStore.priorEntries]
    omega
  · rw [State.placeEntry_tables]
    refine among_of_subset fun f hf => ?_
    simp only [TableStore.allEntries, List.mem_append] at hf ⊢
    rcases hf with (hf | hf) | hf
    · rcases List.mem_cons.mp (hp.mem_iff.mp hf) with rfl | hf
      · simp
      · simp [hf]
    · simp [hf]
    · exact .inl (.inr hf)

theorem backing_remove {s : State} {e : Entry} {i : Nat} (h : Backing s) (he : s.tables.staged[i]? = some e) :
    Backing (s.removeEntry e i) := by
  have hp : (e :: s.tables.staged.eraseIdx i).Perm s.tables.staged := by
    obtain ⟨hi, rfl⟩ := List.getElem?_eq_some_iff.mp he
    exact List.getElem_cons_eraseIdx_perm hi
  refine backing_lowered (out := [e]) h (fun k => State.segment_dropEntries _ [e] k) (fun k => ?_) ?_
  · rw [State.removeEntry_tables, namedBy_allEntries, namedBy_allEntries, ← namedBy_perm hp, namedBy_cons, namedBy_cons,
      namedBy_nil]
    simp only [TableStore.priorEntries]
    omega
  · rw [State.removeEntry_tables]
    refine among_append (among_append (among_of_subset fun f hf => ?_) ?_) ?_
    · exact allEntries_subset_staged (List.mem_of_mem_eraseIdx hf)
    · exact among_of_subset fun f hf => allEntries_subset_live hf
    · exact among_of_subset fun f hf => allEntries_subset_prior hf

theorem backing_clear {s : State} (h : Backing s) : Backing s.clearStaged := by
  refine backing_lowered (out := s.tables.staged) h (fun k => State.segment_dropEntries _ _ k) (fun k => ?_) ?_
  · rw [State.clearStaged_tables, namedBy_allEntries, namedBy_allEntries, namedBy_nil]
    simp only [TableStore.priorEntries]
    omega
  · rw [State.clearStaged_tables]
    exact among_append (among_append (fun _ h => absurd h List.not_mem_nil)
      (among_of_subset fun f hf => allEntries_subset_live hf)) (among_of_subset fun f hf => allEntries_subset_prior hf)

theorem backing_copy {s : State} (h : Backing s) (he : s.tables.staged = []) :
    Backing ((s.setStaged (s.tables.live.entries.map Entry.unhit)).addEntries s.tables.live.entries) := by
  refine backing_raised (into := s.tables.live.entries) h (fun k => State.segment_addEntries _ _ k)
    (fun e hl => h.2.1 e (allEntries_subset_live hl)) (fun k => ?_) ?_
  · rw [State.addEntries_tables, namedBy_allEntries, namedBy_allEntries, he, namedBy_nil]
    simp only [TableStore.priorEntries, State.setStaged, namedBy_unhit]
    omega
  · rw [State.addEntries_tables]
    refine among_append (among_append (among_map_unhit fun f hf => ?_) ?_) ?_
    · simp [hf]
    · exact among_of_subset fun f hf => List.mem_append_left _ (allEntries_subset_live hf)
    · exact among_of_subset fun f hf => List.mem_append_left _ (allEntries_subset_prior hf)

theorem backing_takeSwitch {s : State} (c : PendingCommit) (h : Backing s) : Backing (s.takeSwitch c) := by
  refine backing_lowered (out := s.tables.priorEntries) h (segment_takeSwitch s c) (fun k => ?_) ?_
  · rw [State.takeSwitch_tables, namedBy_allEntries, namedBy_allEntries, namedBy_nil]
    change 0 + namedBy (s.tables.staged.map Entry.unhit) k + namedBy s.tables.live.entries k + _ = _
    rw [namedBy_unhit]
    omega
  · rw [State.takeSwitch_tables]
    exact among_append (among_append (fun _ h => absurd h List.not_mem_nil)
      (among_map_unhit fun f hf => allEntries_subset_staged hf)) (among_of_subset fun f hf => allEntries_subset_live hf)

/-- R16: a revert exchanges LIVE and PRIOR, and no claim is made. -/
theorem backing_revertTables {s t : State} (h : Backing s) (hs : t.mem.segments = s.mem.segments)
    (ht : t.tables = s.revertTables.tables) : Backing t := by
  unfold State.revertTables at ht
  split at ht
  · exact backing_of_eq h hs ht
  · rename_i p hp
    have hprior : s.tables.priorEntries = p.entries := by simp only [TableStore.priorEntries, hp]; rfl
    refine backing_kept h (fun k => by rw [segment_congr hs]; exact ClaimsKept.rfl' _) (fun k => ?_) ?_
    · rw [ht, namedBy_allEntries, namedBy_allEntries, hprior]
      change namedBy s.tables.staged k + namedBy p.entries k + namedBy s.tables.live.entries k = _
      omega
    · rw [ht]
      exact among_append (among_append (among_of_subset fun f hf => allEntries_subset_staged hf)
        (among_of_subset fun f hf => allEntries_subset_prior (hprior ▸ hf)))
        (among_of_subset fun f hf => allEntries_subset_live hf)

theorem backing_hitsOnly {s t : State} (h : Backing s) (hs : t.mem.segments = s.mem.segments)
    (hu : HitsOnly s.tables t.tables) : Backing t := by
  have hp : t.tables.priorEntries = s.tables.priorEntries := by simp only [TableStore.priorEntries, hu.prior]
  have he : t.tables.allEntries.map Entry.unhit = s.tables.allEntries.map Entry.unhit := by
    simp only [TableStore.allEntries, List.map_append, hu.entries, hu.staged, hp]
  exact backing_kept h (fun k => by rw [segment_congr hs]; exact ClaimsKept.rfl' _) (namedBy_of_unhit he)
    (among_of_unhit he)

theorem backing_movements : KeptByMovements Backing where
  takeSwitch _ c h _ := backing_takeSwitch c h
  takeRevert s o h _ := backing_revertTables h (by simp) (by simp)

theorem backing_folded {s t : State} {j : CrcJob} (h : Backing s) (hf : Folded s j t) : Backing t := by
  have hdec : ∀ crc, Backing (sealDecided s j crc) := fun crc =>
    backing_setSegment h (claimsKept_afterSeal _ _ _) (segment_sealDecided s j crc) rfl
  cases hf with
  | next rem _ => exact backing_of_eq h rfl rfl
  | record crc _ _ _ => exact backing_of_eq (hdec crc) rfl rfl
  | failed crc _ _ _ => exact backing_reset (segment_memReset (failSlot_mem _ _ _)) (failSlot_tables _ _ _)
  | answered crc _ _ _ _ => exact backing_of_eq (hdec crc) rfl rfl

theorem backing_act {s t : State} (h : Backing s) (a : Act s t) : Backing t := by
  have hm := backing_movements
  have hset : ∀ {u : State} {k : Handle} {g : Segment}, u.tables = s.tables →
      (∀ j, u.segment j = if j = k then g else s.segment j) → (s.segment k).references = 0 → g.references = 0 →
      g.condemnedNamed = true → Backing u := fun ht hs h0 h0' hn =>
    backing_setSegment h (claimsKept_of_zero h0 h0' hn) hs ht
  cases a with
  | quiet q => exact backing_of_eq h q.segments q.tables
  | alloc _ e =>
    exact hset rfl (fun j => State.segment_setSegment _ _ _ _) (by rw [(allocAnswer_gives e).1]; rfl) rfl rfl
  | sealStart _ _ hs _ _ =>
    exact hset rfl (fun j => State.segment_setSegment _ _ _ _) (by rw [hs]; rfl) rfl rfl
  | reopen _ hs h0 =>
    exact hset rfl (fun j => State.segment_setSegment _ _ _ _) (by rw [hs]; exact h0) rfl rfl
  | free k _ => exact backing_setSegment h (claimsKept_freed _) (segment_freeSegment s k) (by simp)
  | fold _ hf => exact backing_folded h hf
  | place ha => exact backing_place h ha
  | remove he => exact backing_remove h he
  | clear => exact backing_clear h
  | copy he => exact backing_copy h he
  | hits hu => exact backing_hitsOnly h rfl hu
  | commit c _ _ => exact hm.settle (backing_of_entries h rfl rfl)
  | abort _ => exact backing_of_entries h rfl rfl
  | revert _ _ _ => exact hm.settle (backing_of_eq h rfl rfl)
  | tick => exact hm.tick (backing_of_eq h (by simp) (by simp))
  | move _ => exact hm.takeMovement h
  | targetReset =>
    exact hm.targetReset (backing_of_eq h rfl rfl) fun u hu _ => backing_of_eq hu (by simp) (by simp)
  | accept _ =>
    exact backing_hitsOnly (hm.switchAtAccept h _) (accept_segments _ _) (hitsOnly_accept _ _)
  | begin _ => exact backing_hitsOnly h (by simp) (hitsOnly_serve _ _)
  | romRead w _ _ =>
    exact backing_hitsOnly h (by simp) ((hitsOnly_deliver s.endRom _ _).trans' (hitsOnly_serve _ _))
  | fetchRead _ => exact backing_hitsOnly h (by simp) (hitsOnly_fetchReadEnds _ _)
  | fail r i _ => exact backing_reset (segment_memReset (failSlot_mem _ _ _)) (failSlot_tables _ _ _)
  | segment _ _ _ _ e =>
    exact hset rfl (fun j => State.segment_setSegment _ _ _ _) (by rw [(allocAnswer_gives e).1]; rfl) rfl rfl
  | lastWord w _ _ hs _ =>
    exact hset rfl (fun j => State.segment_setSegment _ _ _ _) (by rw [hs]; rfl) rfl rfl
  | succeed _ _ => exact hm.settle (backing_of_entries h rfl rfl)
  | _ => exact backing_of_eq h (by simp) (by simp)

/-- Settles O57: the counts follow the entries through every claim, and no other act touches a segment that is named. -/
theorem everyStepKeepsTheReferences : Obligations.EveryStepKeepsTheReferences := fun _ _ hs h =>
  step_keeps Backing (fun _ _ _ r => backing_reset (segment_resetTo r) r.tables)
    (fun _ _ hs l => backing_of_eq hs (by rw [l.mem]) l.tables) (fun _ _ => backing_act) hs h

end Sys2Proof.Proofs
end

section
/-! PROOF. The descriptors under claims alone, the sealed lengths (R44), and the record of the Generation Controller with the
lock and PRIOR (R13, R94, R109), kept by every act. -/

namespace Sys2Proof.Proofs

open Sys2Proof Sys2Proof.Machine

/-! ### Claims alone -/

/-- What reference claims can make of a descriptor (R52, R53). -/
def Reclaimed (g g' : Segment) : Prop :=
  match g with
  | .free => g' = .free
  | .opened r => g' = .opened r
  | .sealing r n => g' = .sealing r n
  | .sealed r d => ∃ n, g' = .sealed r { d with references := n }
  | .condemned r d => g' = .free ∨ ∃ n, g' = .condemned r { d with references := n }

theorem Reclaimed.rfl' (g : Segment) : Reclaimed g g := by
  cases g with
  | sealed r d => exact ⟨d.references, rfl⟩
  | condemned r d => exact .inr ⟨d.references, rfl⟩
  | _ => exact rfl

theorem Reclaimed.trans {a b c : Segment} (h : Reclaimed a b) (k : Reclaimed b c) : Reclaimed a c := by
  cases a with
  | sealed r d => obtain ⟨n, rfl⟩ := h; exact k
  | condemned r d =>
    rcases h with rfl | ⟨n, rfl⟩
    · exact .inl k
    · exact k
  | _ => subst h; exact k

theorem reclaimed_lowered (g : Segment) (k : Nat) : Reclaimed g (g.lowered k) := by
  cases g with
  | sealed r d => exact ⟨_, rfl⟩
  | condemned r d =>
    unfold Segment.lowered
    dsimp only
    split
    · exact .inr ⟨d.references, rfl⟩
    · split
      · exact .inl rfl
      · exact .inr ⟨_, rfl⟩
  | _ => exact rfl

theorem reclaimed_raised (g : Segment) (k : Nat) : Reclaimed g (g.raised k) := by
  cases g with
  | sealed r d => exact ⟨_, rfl⟩
  | condemned r d => exact .inr ⟨_, rfl⟩
  | _ => exact rfl

/-- Every descriptor is as claims can make it. -/
abbrev Claims (s t : State) : Prop := ∀ k, Reclaimed (s.segment k) (t.segment k)

theorem claims_of_eq {s t : State} (h : t.mem.segments = s.mem.segments) : Claims s t := fun k => by
  rw [segment_congr h]
  exact Reclaimed.rfl' _

theorem Claims.trans {s t u : State} (h : Claims s t) (k : Claims t u) : Claims s u := fun j => (h j).trans (k j)

theorem claims_dropEntries (s : State) (es : List Entry) : Claims s (s.dropEntries es) := fun k => by
  rw [State.segment_dropEntries]
  exact reclaimed_lowered _ _

theorem claims_addEntries (s : State) (es : List Entry) : Claims s (s.addEntries es) := fun k => by
  rw [State.segment_addEntries]
  exact reclaimed_raised _ _

theorem claims_takeSwitch (s : State) (c : PendingCommit) : Claims s (s.takeSwitch c) := fun k => by
  rw [segment_takeSwitch]
  exact reclaimed_lowered _ _

theorem claims_movements (s : State) : KeptByMovements (Claims s) where
  takeSwitch u c h _ := h.trans (claims_takeSwitch u c)
  takeRevert u o h _ := h.trans (claims_of_eq (by simp))

/-! ### The acts that leave the descriptors to claims -/

theorem claims_place (s : State) (e : Entry) (i : Nat) : Claims s (s.placeEntry e i) :=
  claims_addEntries (s.setStaged (s.tables.staged.insertIdx i e)) [e]

theorem claims_remove (s : State) (e : Entry) (i : Nat) : Claims s (s.removeEntry e i) :=
  claims_dropEntries (s.setStaged (s.tables.staged.eraseIdx i)) [e]

theorem claims_clear (s : State) : Claims s s.clearStaged := claims_dropEntries (s.setStaged []) s.tables.staged

theorem claims_copy (s : State) (es fs : List Entry) : Claims s ((s.setStaged es).addEntries fs) :=
  claims_addEntries (s.setStaged es) fs

theorem claims_settle {s t : State} (h : t.mem.segments = s.mem.segments) : Claims s t.settle :=
  (claims_movements s).settle (claims_of_eq h)

theorem claims_tick (s : State) : Claims s s.tick := (claims_movements s).tick (claims_of_eq (by simp))

theorem claims_takeMovement (s : State) : Claims s s.takeMovement :=
  (claims_movements s).takeMovement (claims_of_eq rfl)

theorem claims_targetReset (s : State) : Claims s s.targetReset :=
  (claims_movements s).targetReset (claims_of_eq rfl) fun u hu _ => hu.trans (claims_of_eq (by simp))

theorem claims_accept (s : State) (p : Presentation) : Claims s (s.accept p) :=
  ((claims_movements s).switchAtAccept (claims_of_eq rfl) p).trans (claims_of_eq (accept_segments s p))

/-! ### Sealed lengths (R44) -/

theorem lengthInRange_reclaimed {g g' : Segment} (h : g.lengthInRange = true) (c : Reclaimed g g') :
    g'.lengthInRange = true := by
  cases g with
  | sealed r d => obtain ⟨n, rfl⟩ := c; exact h
  | condemned r d =>
    rcases c with rfl | ⟨n, rfl⟩
    · rfl
    · exact h
  | _ => subst c; exact h

theorem lengthInRange_afterSeal {g : Segment} (h : g.lengthInRange = true) (c e : Crc32) :
    (g.afterSeal c e).lengthInRange = true := by
  unfold Segment.afterSeal
  cases g with
  | sealing r n =>
    dsimp only
    split
    · exact h
    · rfl
  | _ => exact h

theorem lengthInRange_freed {g : Segment} (h : g.lengthInRange = true) : (freed g).lengthInRange = true := by
  unfold freed
  cases g with
  | sealed r d =>
    dsimp only
    split
    · rfl
    · exact h
  | opened r => rfl
  | _ => exact h

theorem lengths_claims {s t : State} (h : LengthsForm s) (c : Claims s t) : LengthsForm t := fun k =>
  lengthInRange_reclaimed (h k) (c k)

theorem lengths_of_eq {s t : State} (h : LengthsForm s) (hs : t.mem.segments = s.mem.segments) : LengthsForm t :=
  lengths_claims h (claims_of_eq hs)

theorem lengths_setSegment {s t : State} {k : Handle} {g : Segment} (h : LengthsForm s) (hg : g.lengthInRange = true)
    (ht : ∀ j, t.segment j = if j = k then g else s.segment j) : LengthsForm t := by
  intro j
  rw [ht]
  split
  · exact hg
  · exact h j

theorem lengths_all_free {t : State} (hs : ∀ k, t.segment k = .free) : LengthsForm t := fun k => by
  rw [hs]
  rfl

theorem lengths_folded {s t : State} {j : CrcJob} (h : LengthsForm s) (hf : Folded s j t) : LengthsForm t := by
  have hdec : ∀ crc, LengthsForm (sealDecided s j crc) := fun crc =>
    lengths_setSegment h (lengthInRange_afterSeal (h _) _ _) (segment_sealDecided s j crc)
  cases hf with
  | next rem _ => exact lengths_of_eq h rfl
  | record crc _ _ _ => exact lengths_of_eq (hdec crc) rfl
  | failed crc _ _ _ => exact lengths_all_free (segment_memReset (failSlot_mem _ _ _))
  | answered crc _ _ _ _ => exact lengths_of_eq (hdec crc) rfl

theorem capacity_opened (r : Run) : (Segment.opened r).capacity = r.count * Config.granuleWords := rfl

/-- R166: what the SEGMENT record in progress has reached while its words are read. -/
theorem progress_opened_iff {s : State} {p : SegmentProgress} {r : Run} (hc : s.loader.current = some p)
    (hs : s.segment p.handle = .opened r) :
    progressForm s = true ↔ s.loader.phase = .records ∧ s.loader.segmentMap.contains p.handle = true
      ∧ p.written < p.length ∧ p.length ≤ r.count * Config.granuleWords ∧ 2 * (p.length - p.written) ≤ bodyLeft s := by
  unfold progressForm
  simp only [hc, hs, Bool.and_eq_true, beq_iff_eq, decide_eq_true_eq]
  constructor
  · rintro ⟨⟨-, hmap⟩, ⟨⟨hph, hw⟩, hl⟩, hb⟩
    exact ⟨hph, hmap, hw, hl, hb⟩
  · rintro ⟨hph, hmap, hw, hl, hb⟩
    exact ⟨⟨by rw [hph]; rfl, hmap⟩, ⟨⟨hph, hw⟩, hl⟩, hb⟩

theorem lengths_act {s t : State} (h : LengthsForm s) (hp : progressForm s = true) (a : Act s t) : LengthsForm t := by
  cases a with
  | quiet q => exact lengths_of_eq h q.segments
  | alloc _ e => exact lengths_setSegment h rfl fun j => State.segment_setSegment _ _ _ _
  | sealStart _ _ hs h1 hn =>
    refine lengths_setSegment h ?_ fun j => State.segment_setSegment _ _ _ _
    rw [hs, capacity_opened] at hn
    simp only [Segment.lengthInRange, Bool.and_eq_true, decide_eq_true_eq]
    exact ⟨h1, hn⟩
  | reopen _ _ _ => exact lengths_setSegment h rfl fun j => State.segment_setSegment _ _ _ _
  | free k _ => exact lengths_setSegment h (lengthInRange_freed (h k)) (segment_freeSegment s k)
  | fold _ hf => exact lengths_folded h hf
  | place _ => exact lengths_claims h (claims_place _ _ _)
  | remove _ => exact lengths_claims h (claims_remove _ _ _)
  | clear => exact lengths_claims h (claims_clear _)
  | copy _ => exact lengths_claims h (claims_copy s _ _)
  | commit c _ _ => exact lengths_claims h (claims_settle rfl)
  | revert _ _ _ => exact lengths_claims h (claims_settle rfl)
  | tick => exact lengths_claims h (claims_tick s)
  | move _ => exact lengths_claims h (claims_takeMovement s)
  | targetReset => exact lengths_claims h (claims_targetReset s)
  | accept _ => exact lengths_claims h (claims_accept s _)
  | fail r i _ => exact lengths_all_free (segment_memReset (failSlot_mem _ _ _))
  | segment _ _ _ _ _ => exact lengths_setSegment h rfl fun j => State.segment_setSegment _ _ _ _
  | lastWord w _ hc hs _ =>
    obtain ⟨-, -, hw, hl, -⟩ := (progress_opened_iff hc hs).mp hp
    refine lengths_setSegment (s := s) h ?_ fun j => State.segment_setSegment _ _ _ _
    simp only [Segment.lengthInRange, Bool.and_eq_true, decide_eq_true_eq]
    exact ⟨Nat.one_le_of_lt hw, hl⟩
  | succeed _ _ => exact lengths_claims h (claims_settle rfl)
  | _ => exact lengths_of_eq h (by simp)

/-! ### The Generation Controller (R13, R94, R109) -/

/-- R13, R94, R109 together. -/
abbrev GenWell (s : State) : Prop := LockForm s ∧ PriorForm s ∧ TrialForm s

theorem genWell_of_eq {s t : State} (h : GenWell s) (hg : t.gen = s.gen) (hl : t.tables.stagedLock = s.tables.stagedLock)
    (hp : t.tables.prior = s.tables.prior) : GenWell t := by
  simp only [GenWell, LockForm, PriorForm, TrialForm, hg, hl, hp]
  exact h

theorem genWell_reset {t : State} (hg : t.gen = genReset) (ht : t.tables = tablesReset) : GenWell t := by
  simp only [GenWell, LockForm, PriorForm, TrialForm, hg, ht]
  exact ⟨rfl, nofun, Nat.zero_le _, nofun⟩

/-- A state outside PROBATION, with its lock and with PRIOR present where it needs it. -/
theorem genWell_outside {s t : State} (h : GenWell s) (hl : t.tables.stagedLock = t.gen.state.isPending)
    (hp : t.gen.state.needsPrior = true → t.tables.prior.isSome = true) (hc : t.gen.resetCount = s.gen.resetCount)
    (ht : t.gen.tolerance = s.gen.tolerance) (hn : t.gen.state ≠ .probation) : GenWell t := by
  refine ⟨hl, hp, ?_, fun e => absurd e hn⟩
  rw [hc, ht]
  exact h.2.2.1

theorem genWell_takeSwitch (s : State) (c : PendingCommit) : GenWell (s.takeSwitch c) := by
  unfold GenWell LockForm PriorForm TrialForm
  rw [State.takeSwitch_tables, State.takeSwitch_gen]
  by_cases h : c.probation = 0
  · simp only [if_pos h]
    exact ⟨rfl, nofun, Nat.zero_le _, nofun⟩
  · simp only [if_neg h]
    exact ⟨rfl, fun _ => rfl, Nat.zero_le _, fun _ => ⟨h, Nat.zero_le _, trivial⟩⟩

theorem revertTables_lock (s : State) : s.revertTables.tables.stagedLock = s.tables.stagedLock := by
  unfold State.revertTables
  split <;> rfl

theorem genWell_movements : KeptByMovements GenWell where
  takeSwitch s c _ _ := genWell_takeSwitch s c
  takeRevert s o h hg := by
    refine genWell_outside h ?_ ?_ ?_ ?_ ?_ <;> rw [State.takeRevert_gen]
    · rw [State.takeRevert_tables, revertTables_lock, h.1, hg]
      rfl
    · exact nofun
    · exact nofun

theorem genWell_tickTrial {s : State} (h : GenWell s) : GenWell ({ s with divider := 0 } : State).tickTrial := by
  unfold State.tickTrial
  split
  · exact h
  · exact h
  · rename_i hg
    have hg : s.gen.state = .probation := hg
    obtain ⟨hl, hp, hc, ht⟩ := h
    obtain ⟨-, hr, ho⟩ := ht hg
    rw [LockForm, hg] at hl
    rw [PriorForm, hg] at hp
    split
    · exact ⟨hl, hp, hc, nofun⟩
    · rename_i h1
      split
      · exact ⟨by rw [LockForm, hg]; exact hl, by rw [PriorForm, hg]; exact hp, hc, ht⟩
      · rename_i h0
        refine ⟨by rw [LockForm, hg]; exact hl, by rw [PriorForm, hg]; exact hp, hc, fun _ => ⟨?_, hr, ho⟩⟩
        change s.gen.timer - 1 ≠ 0
        change ¬ s.gen.timer = 1 at h1
        intro e
        exact h1 (by bv_omega)
  · exact h

theorem genWell_countReset {s : State} (h : GenWell s) (hg : s.gen.state = .probation) : GenWell s.countReset := by
  obtain ⟨hl, hp, hc, ht⟩ := h
  obtain ⟨hz, hr, ho⟩ := ht hg
  rw [LockForm, hg] at hl
  rw [PriorForm, hg] at hp
  unfold State.countReset
  split
  · exact ⟨hl, hp, Nat.succ_le_succ hr, nofun⟩
  · rename_i hx
    simp only [resetExceeds, gt_iff_lt, decide_eq_true_eq, not_lt] at hx
    exact ⟨by rw [LockForm, hg]; exact hl, by rw [PriorForm, hg]; exact hp, hx.trans (Nat.le_succ _),
      fun _ => ⟨hz, hx, ho⟩⟩

theorem genWell_recordCommit {s : State} (h : GenWell s) (c : PendingCommit) : GenWell (s.recordCommit c) :=
  genWell_outside h rfl nofun rfl rfl nofun

theorem failSlot_gen (s : State) (r : SlotResult) (i : Nat) : (s.failSlot r i).gen = genReset := by
  unfold State.failSlot State.fallBack
  dsimp only
  split <;> rfl

theorem genWell_hitsOnly {s t : State} (h : GenWell s) (hg : t.gen = s.gen) (hu : HitsOnly s.tables t.tables) :
    GenWell t := genWell_of_eq h hg hu.lock hu.prior

theorem genWell_folded {s t : State} {j : CrcJob} (h : GenWell s) (hf : Folded s j t) : GenWell t := by
  cases hf with
  | failed _ _ _ _ => exact genWell_reset (failSlot_gen _ _ _) (failSlot_tables _ _ _)
  | _ => exact h

theorem accept_gen (s : State) (p : Presentation) : (s.accept p).gen = (s.switchAtAccept p).gen := by
  unfold State.accept
  dsimp only
  split
  · split <;> simp
  · simp

@[simp] theorem fetchReadEnds_gen (s : State) (c : FetchClaim) : (s.fetchReadEnds c).gen = s.gen := by
  unfold State.fetchReadEnds
  dsimp only
  split <;> simp

@[simp] theorem romReadEnds_gen (s : State) (r : Request) (w : Word) : (s.romReadEnds r w).gen = s.gen := by
  simp [State.romReadEnds]

@[simp] theorem romWriteEnds_gen (s : State) (r : Request) (w fd : Word) : (s.romWriteEnds r w fd).gen = s.gen := by
  simp [State.romWriteEnds]

theorem genWell_act {s t : State} (h : GenWell s) (a : Act s t) : GenWell t := by
  have hm := genWell_movements
  cases a with
  | quiet q => exact genWell_of_eq h q.gen (by rw [q.tables]) (by rw [q.tables])
  | hits hu => exact genWell_hitsOnly h rfl hu
  | commit c _ _ => exact hm.settle (genWell_recordCommit h c)
  | abort _ => exact genWell_outside h rfl nofun rfl rfl nofun
  | revert _ hp hg =>
    refine hm.settle (genWell_outside h ?_ (fun _ => hp) rfl rfl nofun)
    rcases hg with hg | hg <;> exact h.1.trans (by rw [hg]; rfl)
  | confirm hg => exact genWell_outside h (h.1.trans (by rw [hg]; rfl)) nofun rfl rfl nofun
  | tick => exact hm.tick (genWell_tickTrial h)
  | move _ => exact hm.takeMovement h
  | targetReset => exact hm.targetReset (by exact h) fun u hu hg => genWell_countReset hu hg
  | accept _ => exact genWell_hitsOnly (hm.switchAtAccept h _) (accept_gen _ _) (hitsOnly_accept _ _)
  | begin _ => exact genWell_hitsOnly h (by simp) (hitsOnly_serve _ _)
  | romRead w _ _ =>
    exact genWell_hitsOnly h (by simp) ((hitsOnly_deliver s.endRom _ _).trans' (hitsOnly_serve _ _))
  | fetchRead _ => exact genWell_hitsOnly h (by simp) (hitsOnly_fetchReadEnds _ _)
  | fold _ hf => exact genWell_folded h hf
  | fail _ _ _ => exact genWell_reset (failSlot_gen _ _ _) (failSlot_tables _ _ _)
  | succeed _ _ => exact hm.settle (genWell_recordCommit (s := s.setLoader _) h _)
  | _ => exact genWell_of_eq h (by simp) (by simp) (by simp)

end Sys2Proof.Proofs
end

section
/-! PROOF. The holds on the Command Unit (R146, R148), the loader's seals (R66), the CRC engine's job (R61, R62) and the patch
RAM arbiter (R65), kept by every act. -/

namespace Sys2Proof.Proofs

open Sys2Proof Sys2Proof.Machine

/-! ### The loader's phase -/

theorem inPhase_iff {s : State} {p : LoaderPhase} :
    inPhase s p = true ↔ s.loader.state = .running ∧ s.loader.phase = p := by
  simp [inPhase, loaderRunning]

theorem inPhase_congr {s t : State} (h : t.loader = s.loader) (p : LoaderPhase) : inPhase t p = inPhase s p := by
  simp [inPhase, loaderRunning, h]

theorem loaderRunning_iff {s : State} : loaderRunning s = true ↔ s.loader.state = .running := by simp [loaderRunning]

theorem loaderRunning_congr {s t : State} (h : t.loader = s.loader) : loaderRunning t = loaderRunning s := by
  simp [loaderRunning, h]

theorem inPhase_of_atRecord {s : State} (h : atRecord s = true) : inPhase s .records = true ∧ s.loader.current = none := by
  simpa [atRecord] using h

theorem servedJob_iff {s : State} {j : CrcJob} :
    servedJob s = some j ↔ s.mem.arbiter.serving = some .crcRead ∧ s.mem.crcJob = some j := by
  unfold servedJob
  split <;> simp_all

/-! ### What the ends of accesses leave alone -/

section

variable (s : State) (r : Request) (c : FetchClaim) (w v : Word)

@[simp] theorem romReadEnds_cmd : (s.romReadEnds r w).cmd = s.cmd := by simp [State.romReadEnds]
@[simp] theorem romReadEnds_loader : (s.romReadEnds r w).loader = s.loader := by simp [State.romReadEnds]
@[simp] theorem romReadEnds_crcJob : (s.romReadEnds r w).mem.crcJob = s.mem.crcJob := by simp [State.romReadEnds]
@[simp] theorem romWriteEnds_cmd : (s.romWriteEnds r w v).cmd = s.cmd := by simp [State.romWriteEnds]
@[simp] theorem romWriteEnds_loader : (s.romWriteEnds r w v).loader = s.loader := by simp [State.romWriteEnds]

@[simp] theorem fetchReadEnds_cmd : (s.fetchReadEnds c).cmd = s.cmd := by
  unfold State.fetchReadEnds; dsimp only; split <;> simp

@[simp] theorem fetchReadEnds_loader : (s.fetchReadEnds c).loader = s.loader := by
  unfold State.fetchReadEnds; dsimp only; split <;> simp

@[simp] theorem fetchReadEnds_crcJob : (s.fetchReadEnds c).mem.crcJob = s.mem.crcJob := by
  unfold State.fetchReadEnds; dsimp only; split <;> simp

end

/-! ### The holds on the Command Unit and the loader's seals -/

/-- R66, R146, R148 together. -/
abbrev CmdWell (s : State) : Prop := HeldForm s ∧ UnheldForm s ∧ LoaderSealForm s

/-- A manual revert waits. -/
abbrev ManualWaits (s : State) : Prop := s.gen.state = .revertWaiting .manual

theorem sealRuns_congr {s t : State} (h : t.mem.crcJob = s.mem.crcJob) (b : Bool) : sealRuns t b = sealRuns s b := by
  simp only [sealRuns, h]

theorem sealRuns_none {s : State} (h : s.mem.crcJob = none) (b : Bool) : sealRuns s b = false := by
  simp [sealRuns, h]

theorem sealRuns_some {s : State} {j : CrcJob} (h : s.mem.crcJob = some j) (b : Bool) :
    sealRuns s b = (j.forLoader == b) := by
  simp [sealRuns, h]

/-- Seals, the hold, the wait of a manual revert and the phase SEAL_WAIT as before, and no run begun. -/
theorem cmdWell_congr {s t : State} (h : CmdWell s) (hb : t.cmd.busy = s.cmd.busy)
    (hj : ∀ b, sealRuns t b = sealRuns s b) (hg : ManualWaits t ↔ ManualWaits s)
    (hr : loaderRunning t = true → loaderRunning s = true) (hp : inPhase t .sealWait = inPhase s .sealWait) :
    CmdWell t := by
  obtain ⟨⟨h1, h2⟩, hu, hl⟩ := h
  refine ⟨⟨?_, ?_⟩, fun hrun => ?_, ?_⟩
  · rw [hb, hj]; exact h1
  · rw [hb, h2]; exact hg.symm
  · rw [hb]; exact hu (hr hrun)
  · rw [LoaderSealForm, hp, hj]; exact hl

theorem cmdWell_loaderKept {s t : State} (h : CmdWell s) (hb : t.cmd.busy = s.cmd.busy)
    (hj : t.mem.crcJob = s.mem.crcJob) (hg : ManualWaits t ↔ ManualWaits s) (hl : t.loader = s.loader) : CmdWell t :=
  cmdWell_congr h hb (sealRuns_congr hj) hg (by rw [loaderRunning_congr hl]; exact id) (inPhase_congr hl _)

/-- No command held, no seal in progress, no manual revert waiting, and the loader not in SEAL_WAIT. -/
theorem cmdWell_unheld {t : State} (hb : t.cmd.busy = none) (hj : t.mem.crcJob = none) (hg : ¬ ManualWaits t)
    (hp : inPhase t .sealWait = false) : CmdWell t := by
  refine ⟨⟨?_, ?_⟩, fun _ => hb, ?_⟩
  · rw [hb, sealRuns_none hj]; exact ⟨nofun, nofun⟩
  · rw [hb]; exact ⟨nofun, fun e => absurd e hg⟩
  · rw [LoaderSealForm, hp, sealRuns_none hj]

theorem CmdWell.notManual {s : State} (h : CmdWell s) (hb : s.cmd.busy = none) : ¬ ManualWaits s := fun e => by
  have := h.1.2.mpr e
  rw [hb] at this
  cases this

/-- With the unit unheld a seal in progress is the loader's, in SEAL_WAIT. -/
theorem CmdWell.noJob {s : State} (h : CmdWell s) (hb : s.cmd.busy = none) (hp : inPhase s .sealWait = false) :
    s.mem.crcJob = none := by
  obtain ⟨⟨h1, -⟩, -, hl⟩ := h
  by_contra hne
  obtain ⟨j, hj⟩ := Option.ne_none_iff_exists'.mp hne
  rw [sealRuns_some hj, hb] at h1
  rw [LoaderSealForm, hp, sealRuns_some hj] at hl
  cases hf : j.forLoader with
  | true => rw [hf] at hl; cases hl
  | false => rw [hf] at h1; exact absurd (h1.mpr rfl) nofun

theorem CmdWell.noJob_of_ready {s : State} (h : CmdWell s) (hr : Ready s) : s.mem.crcJob = none := by
  refine h.noJob hr.2.1 ?_
  by_contra hne
  exact hr.2.2 (inPhase_iff.mp (Bool.eq_true_of_not_eq_false hne)).1

theorem CmdWell.unheld_of_phase {s : State} (h : CmdWell s) {p : LoaderPhase} (hp : inPhase s p = true) :
    s.cmd.busy = none := h.2.1 (loaderRunning_iff.mpr (inPhase_iff.mp hp).1)

theorem CmdWell.noJob_of_phase {s : State} (h : CmdWell s) {p : LoaderPhase} (hp : inPhase s p = true)
    (hne : p ≠ .sealWait) : s.mem.crcJob = none := by
  refine h.noJob (h.unheld_of_phase hp) ?_
  by_contra hs
  exact hne ((inPhase_iff.mp hp).2.symm.trans (inPhase_iff.mp (Bool.eq_true_of_not_eq_false hs)).2)

/-- The record of a seal in progress for the loader: SEAL_WAIT, and the unit unheld. -/
theorem CmdWell.sealWait_of_job {s : State} (h : CmdWell s) {j : CrcJob} (hj : s.mem.crcJob = some j)
    (hf : j.forLoader = true) : inPhase s .sealWait = true :=
  (show inPhase s .sealWait = sealRuns s true from h.2.2).trans (by rw [sealRuns_some hj, hf]; rfl)

theorem CmdWell.busy_of_job {s : State} (h : CmdWell s) {j : CrcJob} (hj : s.mem.crcJob = some j)
    (hf : j.forLoader = false) : s.cmd.busy = some .segSeal :=
  h.1.1.mpr (by rw [sealRuns_some hj, hf]; rfl)

/-! #### The acts -/

theorem cmdWell_reset {t : State} (hb : t.cmd = cmdReset) (hj : t.mem.crcJob = none) (hg : t.gen = genReset)
    (hp : inPhase t .sealWait = false) : CmdWell t :=
  cmdWell_unheld (by rw [hb]; rfl) hj (by rw [ManualWaits, hg]; nofun) hp

theorem slot_of_reads {s : State} (h : LoaderForm s) (hr : s.loader.phase.reads = true) :
    ∃ x, s.loader.slot = some x := Option.isSome_iff_exists.mp (h.2.2.1 hr)

/-- R171, R172: after a failed slot the loader reads the next header or has ended. -/
theorem failSlot_phase {s : State} (h : LoaderForm s) (hr : s.loader.phase.reads = true) (r : SlotResult) (i : Nat) :
    inPhase (s.failSlot r i) .sealWait = false := by
  obtain ⟨x, hx⟩ := slot_of_reads h hr
  rw [failSlot_eq hx]
  cases x <;> simp [inPhase, slotFailed]

theorem failSlot_cmd (s : State) (r : SlotResult) (i : Nat) : (s.failSlot r i).cmd = s.cmd := by
  unfold State.failSlot
  simp

theorem cmdWell_failSlot {s : State} (hb : s.cmd.busy = none) (hl : LoaderForm s) (hr : s.loader.phase.reads = true)
    (r : SlotResult) (i : Nat) : CmdWell (s.failSlot r i) := by
  refine cmdWell_unheld ?_ (by rw [failSlot_mem]; rfl) (by rw [ManualWaits, failSlot_gen]; nofun) (failSlot_phase hl hr r i)
  rw [failSlot_cmd]
  exact hb

theorem reads_of_slotRead {s : State} (h : SlotRead s) : s.loader.phase.reads = true ∧ s.loader.state = .running := by
  rcases h with h | h <;> obtain ⟨hs, hp⟩ := inPhase_iff.mp h <;> exact ⟨by rw [hp]; rfl, hs⟩

theorem notManual_takeSwitch (s : State) (c : PendingCommit) : ¬ ManualWaits (s.takeSwitch c) := by
  rw [ManualWaits, State.takeSwitch_gen]
  dsimp only
  split <;> nofun

theorem cmdWell_movements : KeptByMovements CmdWell where
  takeSwitch s c h hg := by
    refine cmdWell_loaderKept h (by simp) (by simp) ?_ (by simp)
    exact iff_of_false (notManual_takeSwitch s c) (by rw [ManualWaits, hg]; nofun)
  takeRevert s o h hg := by
    have hsteady : ¬ ManualWaits (s.takeRevert o) := by rw [ManualWaits, State.takeRevert_gen]; nofun
    cases o with
    | manual =>
      have hb : s.cmd.busy = some .revert := h.1.2.mpr hg
      have hns : sealRuns s false = false := by
        by_contra hs
        have := h.1.1.mpr (Bool.eq_true_of_not_eq_false hs)
        rw [hb] at this
        cases this
      have hb' : (s.takeRevert .manual).cmd.busy = none := rfl
      have hj : ∀ b, sealRuns (s.takeRevert .manual) b = sealRuns s b := sealRuns_congr (by simp)
      refine ⟨⟨?_, ?_⟩, fun _ => hb', ?_⟩
      · rw [hb', hj, hns]; exact ⟨nofun, nofun⟩
      · rw [hb']; exact ⟨nofun, fun e => absurd e hsteady⟩
      · rw [LoaderSealForm, hj, inPhase_congr (s := s) (by simp)]
        exact h.2.2
    | expiry =>
      exact cmdWell_loaderKept h (by simp [State.takeRevert]) (by simp) (iff_of_false hsteady (by rw [ManualWaits, hg]; nofun)) (by simp)
    | resets =>
      exact cmdWell_loaderKept h (by simp [State.takeRevert]) (by simp) (iff_of_false hsteady (by rw [ManualWaits, hg]; nofun)) (by simp)

/-- R110: what a tick decides is no manual revert. -/
theorem manualWaits_tickTrial (s : State) : ManualWaits s.tickTrial ↔ ManualWaits s := by
  unfold State.tickTrial
  split
  · rfl
  · rfl
  · rename_i hg
    split
    · exact iff_of_false nofun (by rw [ManualWaits, hg]; nofun)
    · split <;> rfl
  · rfl

theorem notManual_countReset {s : State} (hg : s.gen.state = .probation) : ¬ ManualWaits s.countReset := by
  unfold State.countReset
  split
  · nofun
  · change ¬ s.gen.state = _
    rw [hg]
    nofun

theorem cmdWell_folded {s t : State} {j : CrcJob} (h : CmdWell s) (hl : LoaderForm s) (hj : s.mem.crcJob = some j)
    (hf : Folded s j t) : CmdWell t := by
  cases hf with
  | next rem _ =>
    refine cmdWell_congr h rfl (fun b => ?_) Iff.rfl id rfl
    rw [sealRuns_some hj, sealRuns_some (s := wordFolded s j rem) rfl]
  | record crc _ hfor _ =>
    have hb := h.unheld_of_phase (h.sealWait_of_job hj hfor)
    exact cmdWell_unheld hb rfl (h.notManual hb) (by simp [inPhase, State.completeRecord, State.setLoader])
  | failed crc _ hfor _ =>
    have hw := h.sealWait_of_job hj hfor
    exact cmdWell_failSlot (s := sealDecided s j crc) (h.unheld_of_phase hw) hl
      (by rw [show (sealDecided s j crc).loader = s.loader from rfl, (inPhase_iff.mp hw).2]; rfl) _ _
  | answered crc _ _ _ hfor =>
    have hb := h.busy_of_job hj hfor
    have hnw : inPhase s .sealWait = false :=
      (show inPhase s .sealWait = sealRuns s true from h.2.2).trans (by rw [sealRuns_some hj, hfor]; rfl)
    refine cmdWell_unheld rfl rfl (fun e => ?_) hnw
    have := h.1.2.mpr e
    rw [hb] at this
    cases this

/-- The loader goes on to another phase, with no seal before or after. -/
theorem cmdWell_phase {s t : State} {p : LoaderPhase} (h : CmdWell s) (hp : inPhase s p = true) (hne : p ≠ .sealWait)
    (hb : t.cmd.busy = s.cmd.busy) (hj : t.mem.crcJob = s.mem.crcJob) (hg : t.gen.state = s.gen.state)
    (ht : inPhase t .sealWait = false) : CmdWell t := by
  have hu := h.unheld_of_phase hp
  exact cmdWell_unheld (hb.trans hu) (hj.trans (h.noJob_of_phase hp hne)) (by rw [ManualWaits, hg]; exact h.notManual hu) ht

theorem manualWaits_congr {s t : State} (h : t.gen = s.gen) : ManualWaits t ↔ ManualWaits s := by
  rw [ManualWaits, ManualWaits, h]

theorem cmdWell_act {s t : State} (h : CmdWell s) (hl : LoaderForm s) (a : Act s t) : CmdWell t := by
  have hm := cmdWell_movements
  cases a with
  | quiet q => exact cmdWell_loaderKept h q.busy q.crcJob (manualWaits_congr q.gen) q.loader
  | sealStart e hr _ _ _ =>
    have hnp : ¬ ManualWaits s := h.notManual hr.2.1
    refine ⟨⟨⟨fun _ => rfl, fun _ => rfl⟩, ⟨nofun, fun e => absurd e hnp⟩⟩, fun hrun => ?_, ?_⟩
    · exact absurd (loaderRunning_iff.mp hrun) hr.2.2
    · have := (show inPhase s .sealWait = sealRuns s true from h.2.2).trans (sealRuns_none (h.noJob_of_ready hr) _)
      exact this
  | fold hj hf => exact cmdWell_folded h hl (servedJob_iff.mp hj).2 hf
  | commit c hr _ =>
    refine hm.settle (cmdWell_loaderKept h rfl rfl (iff_of_false ?_ (h.notManual hr.2.1)) rfl)
    nofun
  | abort hg =>
    refine cmdWell_loaderKept h rfl rfl (iff_of_false ?_ (by rw [ManualWaits, hg]; nofun)) rfl
    nofun
  | revert hr _ _ =>
    refine hm.settle ⟨⟨⟨nofun, fun e => ?_⟩, ⟨fun _ => rfl, fun _ => rfl⟩⟩, fun hrun => ?_, ?_⟩
    · exact absurd (e : sealRuns s false = true) (by
        rw [sealRuns_none (s := State.holdRevert s _) (h.noJob_of_ready hr)]
        nofun)
    · exact absurd (loaderRunning_iff.mp hrun) hr.2.2
    · exact h.2.2
  | confirm hg =>
    refine cmdWell_loaderKept h rfl rfl (iff_of_false ?_ (by rw [ManualWaits, hg]; nofun)) rfl
    nofun
  | tick => exact hm.tick (cmdWell_loaderKept h (by simp) (by simp) (manualWaits_tickTrial _) (by simp))
  | move _ => exact hm.takeMovement h
  | targetReset =>
    exact hm.targetReset (by exact h) fun u hu hg => cmdWell_loaderKept hu (by simp) (by simp)
      (iff_of_false (notManual_countReset hg) (by rw [ManualWaits, hg]; nofun)) (by simp)
  | accept _ =>
    exact cmdWell_loaderKept (hm.switchAtAccept h _) (by simp) (by simp) (manualWaits_congr (accept_gen _ _)) (by simp)
  | firstSlot hz =>
    exact cmdWell_phase h hz nofun rfl rfl rfl (by simp [inPhase, State.startSlot, State.setLoader])
  | endRun o hz =>
    rcases hz with hz | hz <;>
      exact cmdWell_phase h hz nofun rfl rfl rfl (by simp [inPhase, State.endRun, State.setLoader, State.raise])
  | fail r i hr =>
    obtain ⟨hreads, hrun⟩ := reads_of_slotRead hr
    exact cmdWell_failSlot (h.2.1 (loaderRunning_iff.mpr hrun)) hl hreads _ _
  | body _ hp => exact cmdWell_phase h hp nofun rfl rfl rfl (by simp [inPhase, State.setLoader, Loader.beginBody])
  | read ha _ =>
    refine cmdWell_phase h (inPhase_of_atRecord ha).1 nofun rfl rfl rfl ?_
    simp [inPhase, State.readBody, State.setLoader, (inPhase_iff.mp (inPhase_of_atRecord ha).1).2]
  | complete ha =>
    exact cmdWell_phase h (inPhase_of_atRecord ha).1 nofun rfl rfl rfl
      (by simp [inPhase, State.completeRecord, State.setLoader])
  | segment _ ha _ _ _ =>
    refine cmdWell_phase h (inPhase_of_atRecord ha).1 nofun rfl rfl rfl ?_
    simp [inPhase, State.beginSegment, State.setLoader, (inPhase_iff.mp (inPhase_of_atRecord ha).1).2]
  | word w hp _ _ _ =>
    refine cmdWell_phase h hp nofun rfl rfl rfl ?_
    simp [inPhase, State.loadWord, State.setLoader, State.readBody, (inPhase_iff.mp hp).2]
  | @lastWord p _ w hp _ _ _ =>
    have hu := h.unheld_of_phase hp
    refine ⟨⟨⟨fun e => ?_, nofun⟩, ⟨fun e => ?_, fun e => absurd e (h.notManual hu)⟩⟩, fun _ => hu, ?_⟩
    · exact absurd (hu.symm.trans (e : s.cmd.busy = _)) nofun
    · exact absurd (hu.symm.trans (e : s.cmd.busy = _)) nofun
    · have hrun : (s.loadWord p w).loader.state = .running := (inPhase_iff.mp hp).1
      simp [LoaderSealForm, inPhase, sealRuns, loaderRunning, State.loaderSeal, State.setLoader, State.startSeal, hrun]
  | succeed ha _ =>
    have hp := (inPhase_of_atRecord ha).1
    have hu := h.unheld_of_phase hp
    refine hm.settle (cmdWell_unheld hu (h.noJob_of_phase hp nofun) nofun ?_)
    simp [inPhase, Loader.succeed]
  | _ => exact cmdWell_loaderKept h (by simp) (by simp) (manualWaits_congr (by simp)) (by simp)

/-! ### The CRC engine's job and the arbiter (R61, R62, R65) -/

/-- R62: the CRC read claims at the arbiter, the one that waits and the one being served. -/
def crcClaims (a : Arbiter) : Nat := a.crcWaits.toNat + (a.serving == some .crcRead).toNat

theorem crcClaims_passed {a : Arbiter} (h : a.serving ≠ some .crcRead) : crcClaims a.passed = crcClaims a := by
  obtain ⟨x, f, d, w⟩ := a
  have hx : (x == some RamAccess.crcRead) = false := by simpa using h
  cases f <;> cases d <;> cases w <;> simp [crcClaims, Arbiter.passed, hx]

/-- The CRC read that had the port has ended. -/
theorem crcClaims_passed_served {a : Arbiter} (h : a.serving = some .crcRead) :
    crcClaims a.passed + 1 = crcClaims a := by
  obtain ⟨x, f, d, w⟩ := a
  subst h
  cases f <;> cases d <;> cases w <;> simp [crcClaims, Arbiter.passed]

theorem crcClaims_idled (a : Arbiter) : crcClaims a.idled = crcClaims a := by
  unfold Arbiter.idled
  split
  · rename_i h
    exact crcClaims_passed (by rw [h]; nofun)
  · rfl

theorem crcClaims_dataAsked (a : Arbiter) : crcClaims a.dataAsked = crcClaims a := by
  unfold Arbiter.dataAsked
  split
  · rfl
  · rename_i h
    exact crcClaims_passed (a := { a with dataWaits := true }) fun e => h (by
      rw [show a.serving = some .crcRead from e]; rfl)

theorem crcClaims_asked {a : Arbiter} (h : crcClaims a = 0) : crcClaims a.asked = 1 := by
  obtain ⟨x, f, d, w⟩ := a
  simp only [crcClaims, Nat.add_eq_zero_iff, Bool.toNat_eq_zero, beq_eq_false_iff_ne] at h
  obtain ⟨rfl, hx⟩ := h
  have hx : (x == some RamAccess.crcRead) = false := by simpa using hx
  cases x with
  | none => cases f <;> cases d <;> simp [crcClaims, Arbiter.asked, Arbiter.passed]
  | some x => simp [crcClaims, Arbiter.asked, hx]

theorem crcClaims_fetchAsked (a : Arbiter) (c : FetchClaim) : crcClaims (a.fetchAsked c) = crcClaims a := by
  obtain ⟨x, f, d, w⟩ := a
  cases x <;> simp [crcClaims, Arbiter.fetchAsked]

theorem arbiterForm_passed (a : Arbiter) : arbiterForm a.passed = true := by
  obtain ⟨x, f, d, w⟩ := a
  cases f <;> cases d <;> cases w <;> simp [arbiterForm, Arbiter.passed]

theorem arbiterForm_idled {a : Arbiter} (h : arbiterForm a = true) : arbiterForm a.idled = true := by
  unfold Arbiter.idled
  split
  · exact arbiterForm_passed a
  · exact h

/-- R65: the data-port class has one access outstanding, so none has the port once it has ended. -/
theorem idled_serving_ne {a : Arbiter} (h : arbiterForm a = true) : a.idled.serving ≠ some .dataAccess := by
  unfold Arbiter.idled
  split
  · rename_i hs
    obtain ⟨x, f, d, w⟩ := a
    have hs : x = some .dataAccess := hs
    subst hs
    cases f <;> cases d <;> cases w <;> simp_all [arbiterForm, Arbiter.passed]
  · assumption

theorem arbiterForm_dataAsked {a : Arbiter} (h : a.serving ≠ some .dataAccess) : arbiterForm a.dataAsked = true := by
  unfold Arbiter.dataAsked
  split
  · rename_i hs
    have hd : (a.serving == some RamAccess.dataAccess) = false := by simpa using h
    simp [arbiterForm, hs, hd]
  · exact arbiterForm_passed _

theorem arbiterForm_asked {a : Arbiter} (h : a.serving.isSome = true → arbiterForm a = true) :
    arbiterForm a.asked = true := by
  unfold Arbiter.asked
  split
  · rename_i hs
    have := h hs
    simp only [arbiterForm, hs, Bool.true_or, Bool.true_and] at this ⊢
    exact this
  · exact arbiterForm_passed _

theorem arbiterForm_fetchAsked {a : Arbiter} (h : arbiterForm a = true) (c : FetchClaim) :
    arbiterForm (a.fetchAsked c) = true := by
  unfold Arbiter.fetchAsked
  split
  · rename_i hs
    simp only [arbiterForm, hs, Bool.true_or, Bool.true_and] at h ⊢
    exact h
  · simp [arbiterForm]

/-! #### The form of the port -/

/-- R61, R62, R65 together. -/
abbrev PortWell (s : State) : Prop := jobForm s = true ∧ arbiterForm s.mem.arbiter = true

theorem jobForm_none {s : State} (h : s.mem.crcJob = none) : jobForm s = true ↔ crcClaims s.mem.arbiter = 0 := by
  unfold jobForm crcClaims
  rw [h]
  cases s.mem.arbiter.crcWaits <;> simp

theorem jobForm_some {s : State} {j : CrcJob} (h : s.mem.crcJob = some j) :
    jobForm s = true ↔
      j.offset < j.length ∧ crcClaims s.mem.arbiter = 1 ∧ ∃ r, s.segment j.handle = .sealing r j.length := by
  have hc : (s.mem.arbiter.crcWaits != (s.mem.arbiter.serving == some .crcRead)) = true ↔ crcClaims s.mem.arbiter = 1 := by
    unfold crcClaims
    cases s.mem.arbiter.crcWaits <;> cases (s.mem.arbiter.serving == some RamAccess.crcRead) <;> simp
  unfold jobForm
  rw [h]
  simp only [Bool.and_eq_true, decide_eq_true_eq, hc, and_assoc]
  refine and_congr_right fun _ => and_congr_right fun _ => ?_
  cases s.segment j.handle <;> simp

/-- The job as before, with its claim, over descriptors that only claims have changed. -/
theorem portWell_congr {s t : State} (h : PortWell s) (hj : t.mem.crcJob = s.mem.crcJob)
    (hc : crcClaims t.mem.arbiter = crcClaims s.mem.arbiter) (ha : arbiterForm t.mem.arbiter = true) (k : Claims s t) :
    PortWell t := by
  refine ⟨?_, ha⟩
  cases hs : s.mem.crcJob with
  | none =>
    rw [jobForm_none (hj.trans hs), hc]
    exact (jobForm_none hs).mp h.1
  | some j =>
    obtain ⟨h1, h2, r, h3⟩ := (jobForm_some hs).mp h.1
    rw [jobForm_some (hj.trans hs), hc]
    have := k j.handle
    rw [h3] at this
    exact ⟨h1, h2, r, this⟩

theorem portWell_arbiterKept {s t : State} (h : PortWell s) (hj : t.mem.crcJob = s.mem.crcJob)
    (ha : t.mem.arbiter = s.mem.arbiter) (k : Claims s t) : PortWell t :=
  portWell_congr h hj (by rw [ha]) (by rw [ha]; exact h.2) k

/-- Without a job the descriptors are free to change. -/
theorem portWell_noJob {s t : State} (h : PortWell s) (hs : s.mem.crcJob = none) (hj : t.mem.crcJob = s.mem.crcJob)
    (ha : t.mem.arbiter = s.mem.arbiter) : PortWell t :=
  ⟨(jobForm_none (hj.trans hs)).mpr (by rw [ha]; exact (jobForm_none hs).mp h.1), by rw [ha]; exact h.2⟩

theorem portWell_reset {t : State} {m : List Host.Cell} (h : t.mem = { memReset with ram := m }) : PortWell t :=
  ⟨(jobForm_none (by rw [h]; rfl)).mpr (by rw [h]; rfl), by rw [h]; rfl⟩

/-- A job is given to the CRC engine, for a segment that becomes SEALING. -/
theorem portWell_startSeal {s t : State} {j : CrcJob} {r : Run} (h : PortWell s) (hs : s.mem.crcJob = none)
    (hj : t.mem.crcJob = some j) (ho : j.offset < j.length) (hg : t.segment j.handle = .sealing r j.length)
    (ha : t.mem.arbiter = s.mem.arbiter.asked) : PortWell t := by
  refine ⟨(jobForm_some hj).mpr ⟨ho, ?_, r, hg⟩, ?_⟩
  · rw [ha]
    exact crcClaims_asked ((jobForm_none hs).mp h.1)
  · rw [ha]
    exact arbiterForm_asked fun _ => h.2

theorem portWell_sealDecided {s : State} {j : CrcJob} (h : PortWell s) (hs : s.mem.arbiter.serving = some .crcRead)
    (hj : s.mem.crcJob = some j) (crc : Crc32) : PortWell (sealDecided s j crc) := by
  have hc := ((jobForm_some hj).mp h.1).2.1
  have hp := crcClaims_passed_served hs
  exact ⟨(jobForm_none rfl).mpr (show crcClaims s.mem.arbiter.passed = 0 by omega), arbiterForm_passed _⟩

theorem portWell_folded {s t : State} {j : CrcJob} (h : PortWell s) (hs : servedJob s = some j) (hf : Folded s j t) :
    PortWell t := by
  obtain ⟨hserv, hj⟩ := servedJob_iff.mp hs
  cases hf with
  | next rem hlt =>
    obtain ⟨-, hc, r, hg⟩ := (jobForm_some hj).mp h.1
    refine ⟨(jobForm_some (s := wordFolded s j rem) rfl).mpr ⟨hlt, crcClaims_asked ?_, r, hg⟩, arbiterForm_asked nofun⟩
    simp only [crcClaims, hserv] at hc ⊢
    simpa using hc
  | record crc _ _ _ => exact portWell_sealDecided h hserv hj crc
  | failed crc _ _ _ => exact portWell_reset (failSlot_mem _ _ _)
  | answered crc _ _ _ _ => exact portWell_sealDecided h hserv hj crc

/-- What serving a word can do at the arbiter: nothing, or a fetch read claim. -/
theorem startWord_arbiter (s : State) :
    s.startWord.mem.arbiter = s.mem.arbiter ∨ ∃ c, s.startWord.mem.arbiter = s.mem.arbiter.fetchAsked c := by
  unfold State.startWord
  split
  · exact .inl rfl
  · split
    case h_3 => exact .inr ⟨_, claimFetch_eq _ _⟩
    all_goals exact .inl rfl

theorem serve_arbiter (n : Nat) (s : State) :
    (serve n s).mem.arbiter = s.mem.arbiter ∨ ∃ c, (serve n s).mem.arbiter = s.mem.arbiter.fetchAsked c := by
  induction n generalizing s with
  | zero => exact .inl rfl
  | succ n ih =>
    unfold serve
    split
    · exact .inl rfl
    · split
      case h_4 => simpa using ih (s.deliver _ _)
      case h_5 => simpa using ih (s.deliver _ _)
      all_goals exact startWord_arbiter s

/-- A fetch read claim, or none, over descriptors that only claims have changed. -/
theorem portWell_fetchAsked {s t : State} (h : PortWell s) (hj : t.mem.crcJob = s.mem.crcJob)
    (ha : t.mem.arbiter = s.mem.arbiter ∨ ∃ c, t.mem.arbiter = s.mem.arbiter.fetchAsked c) (k : Claims s t) :
    PortWell t := by
  rcases ha with ha | ⟨c, ha⟩
  · exact portWell_arbiterKept h hj ha k
  · exact portWell_congr h hj (by rw [ha, crcClaims_fetchAsked]) (by rw [ha]; exact arbiterForm_fetchAsked h.2 c) k

theorem accept_arbiter (s : State) (p : Presentation) :
    (s.accept p).mem.arbiter = s.mem.arbiter ∨ ∃ c, (s.accept p).mem.arbiter = s.mem.arbiter.fetchAsked c := by
  unfold State.accept
  dsimp only
  split
  · split
    · simpa using startWord_arbiter ((s.switchAtAccept p).setFetch _)
    · simpa using serve_arbiter 8 ((s.switchAtAccept p).setFetch _)
  · exact .inl (by simp)

theorem portWell_movements : KeptByMovements PortWell where
  takeSwitch s c h _ := portWell_arbiterKept h (by simp) (by simp) (claims_takeSwitch s c)
  takeRevert s o h _ := portWell_arbiterKept h (by simp) (by simp) (claims_of_eq (by simp))

theorem portWell_requestEnded {s : State} (h : PortWell s) : PortWell (requestEnded s) := by
  obtain ⟨-, ha⟩ := id h
  refine portWell_congr h rfl ?_ ?_ (claims_of_eq rfl)
  · simp only [crcClaims, requestEnded]
    cases s.mem.arbiter.serving with
    | none => rfl
    | some x => cases x <;> rfl
  · simp only [arbiterForm, requestEnded] at ha ⊢
    cases hx : s.mem.arbiter.serving with
    | none => simp_all
    | some x => cases x <;> simp_all

theorem portWell_setArbiter {s t : State} (h : PortWell s) (hj : t.mem.crcJob = s.mem.crcJob)
    (hs : t.mem.segments = s.mem.segments) (hc : crcClaims t.mem.arbiter = crcClaims s.mem.arbiter)
    (ha : arbiterForm t.mem.arbiter = true) : PortWell t := portWell_congr h hj hc ha (claims_of_eq hs)

theorem portWell_passed {s t : State} (h : PortWell s) (hne : s.mem.arbiter.serving ≠ some .crcRead)
    (hj : t.mem.crcJob = s.mem.crcJob) (hs : t.mem.segments = s.mem.segments)
    (ha : t.mem.arbiter = s.mem.arbiter.passed) : PortWell t :=
  portWell_setArbiter h hj hs (by rw [ha]; exact crcClaims_passed hne) (by rw [ha]; exact arbiterForm_passed _)

theorem portWell_dataClaimed {s t : State} (h : PortWell s) (hj : t.mem.crcJob = s.mem.crcJob)
    (hs : t.mem.segments = s.mem.segments) (ha : t.mem.arbiter = s.mem.arbiter.idled.dataAsked) : PortWell t :=
  portWell_setArbiter h hj hs (by rw [ha, crcClaims_dataAsked, crcClaims_idled])
    (by rw [ha]; exact arbiterForm_dataAsked (idled_serving_ne h.2))

/-- R166: the data-port claim of a word the loader writes. -/
theorem loadWord_arbiter (s : State) (p : SegmentProgress) (w : Word) :
    (s.loadWord p w).mem.arbiter = s.mem.arbiter.idled.dataAsked := by
  rw [← claimData_eq, ← arbiter_dataEnded_eq]
  rfl

theorem portWell_fetchReadEnds {s : State} {c : FetchClaim} (h : PortWell s)
    (hs : s.mem.arbiter.serving = some (.fetchRead c)) : PortWell (s.fetchReadEnds c) := by
  have hf : PortWell s.freePort := by
    rw [freePort_eq]
    exact portWell_passed h (by rw [hs]; nofun) rfl rfl rfl
  unfold State.fetchReadEnds
  dsimp only
  split
  · exact hf
  · exact portWell_fetchAsked hf (by simp) (by simpa using serve_arbiter 8 (s.freePort.deliver _ _)) (claims_of_eq (by simp))

theorem portWell_act {s t : State} (h : PortWell s) (hc : CmdWell s) (hp : progressForm s = true) (a : Act s t) :
    PortWell t := by
  have hm := portWell_movements
  cases a with
  | quiet q => exact portWell_arbiterKept h q.crcJob q.arbiter (claims_of_eq q.segments)
  | portIdled => exact portWell_setArbiter h rfl rfl (crcClaims_idled _) (arbiterForm_idled h.2)
  | portAsked => exact portWell_dataClaimed h rfl rfl rfl
  | discard hs => rw [freePort_eq]; exact portWell_passed h (by rw [hs]; nofun) rfl rfl rfl
  | alloc hr _ => exact portWell_noJob h (hc.noJob_of_ready hr) rfl rfl
  | sealStart _ hr _ h1 _ =>
    exact portWell_startSeal (j := ⟨_, _, _, _, 0, false⟩) h (hc.noJob_of_ready hr) rfl (Nat.lt_of_succ_le h1)
      (setSegment_segment s _ _) (claimCrc_eq _)
  | reopen hr _ _ => exact portWell_noJob h (hc.noJob_of_ready hr) rfl rfl
  | free _ hr => exact portWell_noJob h (hc.noJob_of_ready hr) (by simp) (by simp)
  | fold hj hf => exact portWell_folded h hj hf
  | place _ => exact portWell_arbiterKept h (by simp) (by simp) (claims_place _ _ _)
  | remove _ => exact portWell_arbiterKept h (by simp) (by simp) (claims_remove _ _ _)
  | clear => exact portWell_arbiterKept h (by simp) (by simp) (claims_clear _)
  | copy _ => exact portWell_arbiterKept h (by simp) (by simp) (claims_copy _ _ _)
  | commit c _ _ => exact hm.settle (by exact h)
  | revert _ _ _ => exact hm.settle (by exact h)
  | tick => exact hm.tick (portWell_arbiterKept h (by simp) (by simp) (claims_of_eq (by simp)))
  | move _ => exact hm.takeMovement h
  | targetReset =>
    exact hm.targetReset (portWell_requestEnded h) fun u hu _ =>
      portWell_arbiterKept hu (by simp) (by simp) (claims_of_eq (by simp))
  | accept _ => exact portWell_fetchAsked h (by simp) (accept_arbiter s _) (claims_accept s _)
  | begin _ => exact portWell_fetchAsked h (by simp) (serve_arbiter 8 s) (claims_of_eq (by simp))
  | romRead w _ _ =>
    exact portWell_fetchAsked h (by simp [State.romReadEnds]) (by simpa [State.romReadEnds] using serve_arbiter 8 (s.endRom.deliver _ w))
      (claims_of_eq (by simp))
  | fetchRead hs => exact portWell_fetchReadEnds h hs
  | fail r i _ => exact portWell_reset (failSlot_mem _ _ _)
  | segment _ ha _ _ _ =>
    exact portWell_noJob h (hc.noJob_of_phase (inPhase_of_atRecord ha).1 nofun) rfl rfl
  | word w _ _ _ _ => exact portWell_dataClaimed h rfl rfl (loadWord_arbiter _ _ _)
  | @lastWord p r w hph hcur hs _ =>
    obtain ⟨-, -, hw, -, -⟩ := (progress_opened_iff hcur hs).mp hp
    have hd : PortWell (s.loadWord p w) := portWell_dataClaimed h rfl rfl (loadWord_arbiter _ _ _)
    exact portWell_startSeal (j := ⟨_, _, _, _, 0, true⟩) hd (hc.noJob_of_phase hph nofun) rfl (Nat.zero_lt_of_lt hw)
      (setSegment_segment (s.loadWord p w) _ _) (claimCrc_eq _)
  | succeed _ _ => exact hm.settle (by exact h)
  | _ => exact portWell_arbiterKept h (by simp) (by simp) (claims_of_eq (by simp))

end Sys2Proof.Proofs
end

section
/-! PROOF. The loader's record (R154, R160), the SEGMENT record in progress and the segment map (R154, R166, R171), the FREE
descriptors of the zero-fill (R157) and the tables until the loader's commit (R41, R106), kept by every act. -/

namespace Sys2Proof.Proofs

open Sys2Proof Sys2Proof.Machine

/-! ### The loader's record -/

theorem loaderForm_congr {s t : State} (h : LoaderForm s) (hl : t.loader = s.loader) : LoaderForm t := by
  simp only [LoaderForm, bodyLength, hl]
  exact h

section

variable (l : Loader) (r : SlotReport)

@[simp] theorem report_state : (l.report r).state = l.state := by unfold Loader.report; split <;> rfl
@[simp] theorem report_slot : (l.report r).slot = l.slot := by unfold Loader.report; split <;> rfl
@[simp] theorem report_current : (l.report r).current = l.current := by unfold Loader.report; split <;> rfl

end

/-- A slot is being read: the transaction is at its address. -/
theorem transaction_of_reads {s : State} (h : LoaderForm s) (hr : s.loader.phase.reads = true) :
    s.loader.transaction = s.loader.slot.map slotAddress := by
  obtain ⟨-, ht, -⟩ := h
  rw [ht, if_pos hr]

/-- The record of a loader that runs, from its phase. -/
theorem loaderForm_running {t : State} (hs : t.loader.state = .running) (hp : t.loader.phase ≠ .none)
    (ht : t.loader.transaction = if t.loader.phase.reads then t.loader.slot.map slotAddress else none)
    (hslot : t.loader.phase.reads = true → t.loader.slot.isSome = true)
    (hh : t.loader.header.isSome = t.loader.phase.inBody)
    (hb : t.loader.header.isSome = true → t.loader.bodyRead ≤ bodyLength t) : LoaderForm t :=
  ⟨⟨fun e => absurd e hp, fun e => absurd hs e⟩, ht, hslot, hh, hb⟩

/-- The body goes on, or ends in the wait for a seal: the slot and the header stay. -/
theorem loaderForm_inBody {s t : State} (h : LoaderForm s) (hi : s.loader.phase.inBody = true)
    (hs : t.loader.state = s.loader.state) (hi' : t.loader.phase.inBody = true)
    (ht : t.loader.transaction = s.loader.transaction) (hslot : t.loader.slot = s.loader.slot)
    (hh : t.loader.header = s.loader.header) (hb : t.loader.bodyRead ≤ bodyLength s) : LoaderForm t := by
  have reads_of_inBody : ∀ p : LoaderPhase, p.inBody = true → p.reads = true ∧ p ≠ .none := by
    intro p hp
    cases p <;> first | exact ⟨rfl, nofun⟩ | cases hp
  obtain ⟨hr, hne⟩ := reads_of_inBody _ hi
  obtain ⟨hr', hne'⟩ := reads_of_inBody _ hi'
  have hrun : s.loader.state = .running := by
    by_contra hx
    exact hne (h.1.mpr hx)
  refine loaderForm_running (hs.trans hrun) hne' ?_ ?_ ?_ ?_
  · rw [if_pos hr', ht, hslot]; exact transaction_of_reads h hr
  · rw [hslot]; exact fun _ => h.2.2.1 hr
  · rw [hh, hi', ← hi]; exact h.2.2.2.1
  · simp only [bodyLength, hh] at hb ⊢
    exact fun _ => hb

/-- R164: no more of the body is read than its header gives. -/
theorem bodyRead_add_le {s : State} (h : LoaderForm s) (hi : s.loader.phase.inBody = true) {n : Nat} (hn : n ≤ bodyLeft s) :
    s.loader.bodyRead + n ≤ bodyLength s := by
  obtain ⟨-, -, -, hh, hb⟩ := h
  have := hb (hh.trans hi)
  unfold bodyLeft at hn
  omega

theorem loaderForm_failSlot {s : State} (h : LoaderForm s) (hr : s.loader.phase.reads = true)
    (hs : s.loader.state = .running) (r : SlotResult) (i : Nat) : LoaderForm (s.failSlot r i) := by
  obtain ⟨x, hx⟩ := slot_of_reads h hr
  rw [failSlot_eq hx]
  cases x with
  | a => exact loaderForm_running hs nofun rfl (fun _ => rfl) rfl nofun
  | b => exact ⟨⟨fun _ => nofun, fun _ => rfl⟩, rfl, nofun, rfl, nofun⟩

/-- R173: the end of a run, from a phase without a transaction and without a header. -/
theorem loaderForm_endRun {s : State} (h : LoaderForm s) (o : OutcomeRecord) (hr : s.loader.phase.reads = false)
    (hi : s.loader.phase.inBody = false) : LoaderForm (s.endRun o) := by
  obtain ⟨-, ht, -, hh, -⟩ := h
  rw [hr] at ht
  rw [hi] at hh
  exact ⟨⟨fun _ => nofun, fun _ => rfl⟩, ht, nofun, hh, fun e => absurd (hh.symm.trans e) nofun⟩

theorem inBody_of_records {s : State} (h : inPhase s .records = true) : s.loader.phase.inBody = true := by
  rw [(inPhase_iff.mp h).2]
  rfl

theorem inBody_of_atRecord {s : State} (h : atRecord s = true) : s.loader.phase.inBody = true :=
  inBody_of_records (inPhase_of_atRecord h).1

theorem loaderForm_folded {s t : State} {j : CrcJob} (h : LoaderForm s) (hc : CmdWell s) (hj : s.mem.crcJob = some j)
    (hf : Folded s j t) : LoaderForm t := by
  cases hf with
  | record crc _ hfor _ =>
    have hi : s.loader.phase.inBody = true := by rw [(inPhase_iff.mp (hc.sealWait_of_job hj hfor)).2]; rfl
    exact loaderForm_inBody h hi rfl rfl rfl rfl rfl (bodyRead_add_le h hi (Nat.zero_le _))
  | failed crc _ hfor _ =>
    obtain ⟨hs, hp⟩ := inPhase_iff.mp (hc.sealWait_of_job hj hfor)
    exact loaderForm_failSlot (s := sealDecided s j crc) h (by rw [show (sealDecided s j crc).loader = s.loader from rfl, hp]; rfl)
      hs _ _
  | _ => exact loaderForm_congr h rfl

/-- R166: a word of a SEGMENT record is within the body. -/
theorem loaderForm_loadWord {s t : State} {p : SegmentProgress} {r : Run} (h : LoaderForm s)
    (hp : progressForm s = true) (hph : inPhase s .records = true) (hcur : s.loader.current = some p)
    (hs : s.segment p.handle = .opened r) (hstate : t.loader.state = s.loader.state)
    (hi : t.loader.phase.inBody = true) (ht : t.loader.transaction = s.loader.transaction)
    (hslot : t.loader.slot = s.loader.slot) (hh : t.loader.header = s.loader.header)
    (hb : t.loader.bodyRead = s.loader.bodyRead + 2) : LoaderForm t := by
  obtain ⟨-, -, hw, -, hl⟩ := (progress_opened_iff hcur hs).mp hp
  have hin := inBody_of_records hph
  refine loaderForm_inBody h hin hstate hi ht hslot hh ?_
  rw [hb]
  exact bodyRead_add_le h hin (by omega)

theorem loaderForm_act {s t : State} (h : LoaderForm s) (hc : CmdWell s) (hp : progressForm s = true) (a : Act s t) :
    LoaderForm t := by
  cases a with
  | quiet q => exact loaderForm_congr h q.loader
  | fold hj hf => exact loaderForm_folded h hc (servedJob_iff.mp hj).2 hf
  | firstSlot hz =>
    obtain ⟨hs, hph⟩ := inPhase_iff.mp hz
    obtain ⟨-, -, -, hh, -⟩ := h
    rw [hph] at hh
    exact loaderForm_running hs nofun rfl (fun _ => rfl) hh fun e => absurd (hh.symm.trans e) nofun
  | endRun o hz =>
    rcases hz with hz | hz <;> exact loaderForm_endRun h o (by rw [(inPhase_iff.mp hz).2]; rfl)
      (by rw [(inPhase_iff.mp hz).2]; rfl)
  | fail r i hr =>
    obtain ⟨hreads, hrun⟩ := reads_of_slotRead hr
    exact loaderForm_failSlot h hreads hrun _ _
  | body _ hh =>
    obtain ⟨hs, hph⟩ := inPhase_iff.mp hh
    have hr : s.loader.phase.reads = true := by rw [hph]; rfl
    have htrans := transaction_of_reads h hr
    exact loaderForm_running hs nofun htrans (fun _ => h.2.2.1 hr) rfl fun _ => Nat.zero_le _
  | read ha hl =>
    have hi := inBody_of_atRecord ha
    exact loaderForm_inBody h hi rfl hi rfl rfl rfl (bodyRead_add_le h hi hl)
  | complete ha =>
    have hi := inBody_of_atRecord ha
    exact loaderForm_inBody h hi rfl rfl rfl rfl rfl (bodyRead_add_le h hi (Nat.zero_le _))
  | segment _ ha _ _ _ =>
    have hi := inBody_of_atRecord ha
    exact loaderForm_inBody h hi rfl hi rfl rfl rfl (bodyRead_add_le h hi (Nat.zero_le _))
  | word w hph hcur hs _ =>
    exact loaderForm_loadWord h hp hph hcur hs rfl (inBody_of_records hph) rfl rfl rfl rfl
  | lastWord w hph hcur hs _ => exact loaderForm_loadWord h hp hph hcur hs rfl rfl rfl rfl rfl rfl
  | @succeed hd ha _ =>
    refine loaderForm_congr (s := s.setLoader (s.loader.succeed hd)) ?_ (by simp [State.succeedSlot])
    have hs := (inPhase_iff.mp (inPhase_of_atRecord ha).1).1
    exact loaderForm_running (by simpa [Loader.succeed] using hs) nofun rfl nofun rfl nofun
  | _ => exact loaderForm_congr h (by simp)

/-! ### The record in progress, the segment map and the zero-fill -/

/-- R154, R157, R166, R169, R171 together. -/
abbrev BodyWell (s : State) : Prop := progressForm s = true ∧ MapForm s ∧ FillForm s

theorem current_none_of_outside {s : State} (h : progressForm s = true) (hi : s.loader.phase.inBody = false) :
    s.loader.current = none := by
  cases hc : s.loader.current with
  | none => rfl
  | some p =>
    unfold progressForm at h
    simp [hc, hi] at h

theorem map_nil_of_outside {s : State} (h : MapForm s) (hi : s.loader.phase.inBody = false) : s.loader.segmentMap = [] := by
  by_contra hne
  exact absurd ((h.1 hne).symm.trans hi) nofun

theorem progressForm_none {t : State} (hc : t.loader.current = none) (hp : t.loader.phase ≠ .sealWait) :
    progressForm t = true := by
  unfold progressForm
  rw [hc]
  simpa using hp

theorem mapForm_nil {t : State} (h : t.loader.segmentMap = []) : MapForm t := by
  unfold MapForm
  rw [h]
  exact ⟨fun e => absurd rfl e, List.nodup_nil, fun _ e => absurd e List.not_mem_nil⟩

theorem fillForm_of_phase {t : State} (h : t.loader.phase ≠ .zeroFill) : FillForm t := fun e =>
  absurd (inPhase_iff.mp e).2 h

/-- Outside a body, and outside the zero-fill, there is no record in progress and the map is empty. -/
theorem bodyWell_outside {t : State} (hc : t.loader.current = none) (hm : t.loader.segmentMap = [])
    (hp : t.loader.phase ≠ .sealWait) (hf : t.loader.phase ≠ .zeroFill) : BodyWell t :=
  ⟨progressForm_none hc hp, mapForm_nil hm, fillForm_of_phase hf⟩

theorem stateCode_reclaimed {g g' : Segment} (h : g.stateCode ≠ 0 ∧ g.stateCode ≠ 4) (c : Reclaimed g g') :
    g'.stateCode ≠ 0 ∧ g'.stateCode ≠ 4 := by
  cases g with
  | sealed r d => obtain ⟨n, rfl⟩ := c; exact h
  | condemned r d => exact absurd rfl h.2
  | _ => subst c; exact h

theorem bodyWell_claims {s t : State} (h : BodyWell s) (hl : t.loader = s.loader) (c : Claims s t) : BodyWell t := by
  obtain ⟨hp, ⟨hm1, hm2, hm3⟩, hf⟩ := h
  refine ⟨?_, ⟨by rw [hl]; exact hm1, by rw [hl]; exact hm2, fun k hk => ?_⟩, fun hz k => ?_⟩
  · unfold progressForm at hp ⊢
    simp only [bodyLeft, bodyLength, hl] at hp ⊢
    split at hp
    · exact hp
    · next p _ =>
      have := c p.handle
      cases hg : s.segment p.handle with
      | opened r => rw [hg] at hp this; rw [show t.segment p.handle = _ from this]; exact hp
      | sealing r n => rw [hg] at hp this; rw [show t.segment p.handle = _ from this]; exact hp
      | _ => rw [hg] at hp; simp at hp
  · rw [hl] at hk
    exact stateCode_reclaimed (hm3 k hk) (c k)
  · have := c k
    rw [hf ((inPhase_congr hl _).symm.trans hz) k] at this
    exact this

theorem bodyWell_of_eq {s t : State} (h : BodyWell s) (hl : t.loader = s.loader) (hs : t.mem.segments = s.mem.segments) :
    BodyWell t := bodyWell_claims h hl (claims_of_eq hs)

/-- Without a run the descriptors are free to change. -/
theorem bodyWell_idle {s t : State} (h : BodyWell s) (hl : LoaderForm s) (ht : t.loader = s.loader)
    (hr : s.loader.state ≠ .running) : BodyWell t := by
  have hp : s.loader.phase = .none := hl.1.mpr hr
  have hi : s.loader.phase.inBody = false := by rw [hp]; rfl
  exact bodyWell_outside (by rw [ht]; exact current_none_of_outside h.1 hi) (by rw [ht]; exact map_nil_of_outside h.2.1 hi)
    (by rw [ht, hp]; nofun) (by rw [ht, hp]; nofun)

theorem bodyWell_failSlot {s : State} (h : LoaderForm s) (hr : s.loader.phase.reads = true) (r : SlotResult) (i : Nat) :
    BodyWell (s.failSlot r i) := by
  obtain ⟨x, hx⟩ := slot_of_reads h hr
  rw [failSlot_eq hx]
  cases x <;> exact bodyWell_outside rfl rfl nofun nofun

/-- The next record is awaited: the map and its segments as they are. -/
theorem bodyWell_records {s t : State} (hm : MapForm s)
    (hmap : t.loader.segmentMap = s.loader.segmentMap) (hc : t.loader.current = none) (hp : t.loader.phase = .records)
    (hs : ∀ k ∈ s.loader.segmentMap, (t.segment k).stateCode ≠ 0 ∧ (t.segment k).stateCode ≠ 4) : BodyWell t := by
  refine ⟨progressForm_none hc (by rw [hp]; nofun), ⟨fun _ => by rw [hp]; rfl, by rw [hmap]; exact hm.2.1, ?_⟩,
    fillForm_of_phase (by rw [hp]; nofun)⟩
  rw [hmap]
  exact hs

theorem stateCode_afterSeal {g : Segment} (h : g.stateCode ≠ 0 ∧ g.stateCode ≠ 4) (c e : Crc32) :
    (g.afterSeal c e).stateCode ≠ 0 ∧ (g.afterSeal c e).stateCode ≠ 4 := by
  unfold Segment.afterSeal
  cases g with
  | sealing r n =>
    dsimp only
    split <;> exact ⟨nofun, nofun⟩
  | _ => exact h

theorem bodyWell_folded {s t : State} {j : CrcJob} (h : BodyWell s) (hl : LoaderForm s) (hc : CmdWell s)
    (hj : s.mem.crcJob = some j) (hf : Folded s j t) : BodyWell t := by
  cases hf with
  | next rem _ => exact bodyWell_of_eq h rfl rfl
  | record crc _ hfor _ =>
    refine bodyWell_records h.2.1 rfl rfl rfl fun k hk => ?_
    have hseg : (sealDecided s j crc).completeRecord.segment k = _ := segment_sealDecided s j crc k
    rw [hseg]
    split
    · next e => exact stateCode_afterSeal (h.2.1.2.2 _ (e ▸ hk)) _ _
    · exact h.2.1.2.2 k hk
  | failed crc _ hfor _ =>
    obtain ⟨-, hp⟩ := inPhase_iff.mp (hc.sealWait_of_job hj hfor)
    exact bodyWell_failSlot (s := sealDecided s j crc) hl
      (by rw [show (sealDecided s j crc).loader = s.loader from rfl, hp]; rfl) _ _
  | answered crc _ _ _ hfor =>
    refine bodyWell_idle h hl rfl fun hrun => ?_
    have := hc.2.1 (loaderRunning_iff.mpr hrun)
    rw [hc.busy_of_job hj hfor] at this
    cases this

/-- R165: a SEGMENT record's segment is new to the map. -/
theorem bodyWell_segment {s : State} {k : Handle} {r : Run} {n : Nat} (h : BodyWell s) (ha : atRecord s = true)
    (hl : 2 * n ≤ bodyLeft s) (hn : n ≠ 0) (e : allocAnswer s ((n + 31) / 32) = .taken k r) (c : Crc32) :
    BodyWell (s.beginSegment k r n c) := by
  obtain ⟨hfree, hcount, -, -⟩ := allocAnswer_gives e
  obtain ⟨-, ⟨hm1, hm2, hm3⟩, -⟩ := h
  obtain ⟨hrec, -⟩ := inPhase_of_atRecord ha
  have hp := (inPhase_iff.mp hrec).2
  have hseg : ∀ j, (s.beginSegment k r n c).segment j = if j = k then .opened r else s.segment j := fun j =>
    State.segment_setSegment s k j (.opened r)
  have hnew : k ∉ s.loader.segmentMap := fun hk => (hm3 k hk).1 (by rw [hfree]; rfl)
  refine ⟨?_, ⟨fun _ => inBody_of_atRecord (s := s) ha, ?_, fun j hj => ?_⟩, fillForm_of_phase (by
    change s.loader.phase ≠ _; rw [hp]; nofun)⟩
  · have hcap : n ≤ r.count * Config.granuleWords := by simp only [hcount, Config.granuleWords]; omega
    refine (progress_opened_iff (s := s.beginSegment k r n c) (r := r) rfl (by rw [hseg, if_pos rfl])).mpr
      ⟨hp, ?_, Nat.pos_of_ne_zero hn, hcap, hl⟩
    simp [State.beginSegment, State.setLoader]
  · change (s.loader.segmentMap ++ [k]).Nodup
    rw [List.nodup_append]
    exact ⟨hm2, List.nodup_singleton k, fun a ha' b hb e' => hnew (by
      rw [List.mem_singleton] at hb; rw [← hb, ← e']; exact ha')⟩
  · rw [hseg]
    split
    · exact ⟨nofun, nofun⟩
    · rename_i hne
      rcases List.mem_append.mp (show j ∈ s.loader.segmentMap ++ [k] from hj) with hj | hj
      · exact hm3 j hj
      · exact absurd (List.mem_singleton.mp hj) hne

/-- R166: a word of the record in progress. -/
theorem bodyWell_loadWord {s : State} {p : SegmentProgress} {r : Run} (h : BodyWell s) (hs : s.segment p.handle = .opened r)
    (hcur : s.loader.current = some p) (w : Word) (hlt : p.written + 1 < p.length) : BodyWell (s.loadWord p w) := by
  obtain ⟨hp, hm, -⟩ := h
  obtain ⟨hph, hmap, hw, hl, hb⟩ := (progress_opened_iff hcur hs).mp hp
  refine ⟨?_, hm, fillForm_of_phase (by change s.loader.phase ≠ _; rw [hph]; nofun)⟩
  refine (progress_opened_iff (s := s.loadWord p w) (p := { p with written := p.written + 1 }) rfl hs).mpr
    ⟨hph, hmap, hlt, hl, ?_⟩
  change 2 * (p.length - (p.written + 1)) ≤ bodyLength s - (s.loader.bodyRead + 2)
  unfold bodyLeft at hb
  omega

/-- R166: the last word of the record in progress, and the loader's seal request. -/
theorem bodyWell_lastWord {s : State} {p : SegmentProgress} {r : Run} (h : BodyWell s) (hs : s.segment p.handle = .opened r)
    (hcur : s.loader.current = some p) (w : Word) (hlast : ¬ p.written + 1 < p.length) :
    BodyWell ((s.loadWord p w).loaderSeal p r) := by
  obtain ⟨hp, ⟨-, hm2, hm3⟩, -⟩ := h
  obtain ⟨hph, hmap, hw, -, -⟩ := (progress_opened_iff hcur hs).mp hp
  have hseg : ∀ j, ((s.loadWord p w).loaderSeal p r).segment j =
      if j = p.handle then .sealing r p.length else s.segment j := fun j =>
    State.segment_setSegment (s.loadWord p w) p.handle j _
  refine ⟨?_, ⟨fun _ => rfl, hm2, fun j hj => ?_⟩, fillForm_of_phase nofun⟩
  · have hk := hseg p.handle
    rw [if_pos rfl] at hk
    unfold progressForm
    have hc : ((s.loadWord p w).loaderSeal p r).loader.current = some { p with written := p.written + 1 } := rfl
    rw [hc]
    dsimp only
    rw [hk]
    simp only [Bool.and_eq_true, decide_eq_true_eq]
    exact ⟨⟨rfl, hmap⟩, ⟨rfl, by omega⟩, trivial⟩
  · rw [hseg]
    split
    · exact ⟨nofun, nofun⟩
    · exact hm3 j hj

theorem bodyWell_act {s t : State} (h : BodyWell s) (hl : LoaderForm s) (hc : CmdWell s) (a : Act s t) : BodyWell t := by
  cases a with
  | quiet q => exact bodyWell_of_eq h q.loader q.segments
  | alloc hr _ => exact bodyWell_idle h hl rfl hr.2.2
  | sealStart _ hr _ _ _ => exact bodyWell_idle h hl rfl hr.2.2
  | reopen hr _ _ => exact bodyWell_idle h hl rfl hr.2.2
  | free _ hr => exact bodyWell_idle h hl (by simp) hr.2.2
  | fold hj hf => exact bodyWell_folded h hl hc (servedJob_iff.mp hj).2 hf
  | place _ => exact bodyWell_claims h (by simp) (claims_place _ _ _)
  | remove _ => exact bodyWell_claims h (by simp) (claims_remove _ _ _)
  | clear => exact bodyWell_claims h (by simp) (claims_clear _)
  | copy _ => exact bodyWell_claims h (by simp) (claims_copy _ _ _)
  | commit c _ _ => exact bodyWell_claims h (by simp) (claims_settle rfl)
  | revert _ _ _ => exact bodyWell_claims h (by simp) (claims_settle rfl)
  | tick => exact bodyWell_claims h (by simp) (claims_tick s)
  | move _ => exact bodyWell_claims h (by simp) (claims_takeMovement s)
  | targetReset => exact bodyWell_claims h (by simp) (claims_targetReset s)
  | accept _ => exact bodyWell_claims h (by simp) (claims_accept s _)
  | firstSlot hz =>
    have hi : s.loader.phase.inBody = false := by rw [(inPhase_iff.mp hz).2]; rfl
    have hcur := current_none_of_outside h.1 hi
    have hmap := map_nil_of_outside h.2.1 hi
    exact bodyWell_outside hcur hmap nofun nofun
  | endRun o hz =>
    have hi : s.loader.phase.inBody = false := by rcases hz with hz | hz <;> rw [(inPhase_iff.mp hz).2] <;> rfl
    have hcur := current_none_of_outside h.1 hi
    have hmap := map_nil_of_outside h.2.1 hi
    exact bodyWell_outside hcur hmap nofun nofun
  | fail r i hr => exact bodyWell_failSlot hl (reads_of_slotRead hr).1 _ _
  | body _ _ => exact bodyWell_outside rfl rfl nofun nofun
  | read ha _ =>
    obtain ⟨hrec, hcur⟩ := inPhase_of_atRecord ha
    exact bodyWell_records h.2.1 rfl hcur (inPhase_iff.mp hrec).2 h.2.1.2.2
  | complete ha => exact bodyWell_records h.2.1 rfl rfl rfl h.2.1.2.2
  | segment _ ha hn h0 e => exact bodyWell_segment h ha hn h0 e _
  | word w _ hcur hs hlt => exact bodyWell_loadWord h hs hcur w hlt
  | lastWord w _ hcur hs hlast => exact bodyWell_lastWord h hs hcur w hlast
  | @succeed hd ha _ =>
    refine bodyWell_claims (s := s.setLoader (s.loader.succeed hd)) ?_ (by simp [State.succeedSlot]) (claims_settle rfl)
    exact bodyWell_outside (by simpa [Loader.succeed] using (inPhase_of_atRecord ha).2) rfl nofun nofun
  | _ => exact bodyWell_of_eq h (by simp) (by simp)

/-! ### The tables until the loader's commit -/

theorem loaderBuilding_iff {s : State} :
    loaderBuilding s = true ↔ s.loader.state = .running ∧ s.loader.phase ≠ .switchWait := by
  simp [loaderBuilding, loaderRunning]

theorem building_of_phase {s : State} {p : LoaderPhase} (h : inPhase s p = true) (hne : p ≠ .switchWait) :
    loaderBuilding s = true := by
  obtain ⟨hs, hp⟩ := inPhase_iff.mp h
  exact loaderBuilding_iff.mpr ⟨hs, hp ▸ hne⟩

theorem loaderBuilding_congr {s t : State} (h : t.loader = s.loader) : loaderBuilding t = loaderBuilding s := by
  simp only [loaderBuilding, loaderRunning, h]

theorem building_congr {s t : State} (h : BuildingForm s) (hb : loaderBuilding t = true → loaderBuilding s = true)
    (hl : t.tables.live = s.tables.live) (hp : t.tables.prior = s.tables.prior) (hg : t.gen = s.gen) : BuildingForm t := by
  intro e
  rw [hl, hp, hg]
  exact h (hb e)

theorem building_loaderKept {s t : State} (h : BuildingForm s) (hl : t.loader = s.loader)
    (hv : t.tables.live = s.tables.live) (hp : t.tables.prior = s.tables.prior) (hg : t.gen = s.gen) : BuildingForm t :=
  building_congr h (by rw [loaderBuilding_congr hl]; exact id) hv hp hg

/-- A generation state other than STEADY is found only after the loader's commit. -/
theorem building_moved {s t : State} (h : BuildingForm s) (hl : t.loader = s.loader) (hg : s.gen.state ≠ .steady) :
    BuildingForm t := by
  intro e
  rw [loaderBuilding_congr hl] at e
  exact absurd (by rw [(h e).2.2]; rfl) hg

theorem building_idle {s t : State} (hl : t.loader = s.loader) (hr : s.loader.state ≠ .running) : BuildingForm t := by
  intro e
  rw [loaderBuilding_congr hl] at e
  exact absurd (loaderBuilding_iff.mp e).1 hr

theorem building_hitsOnly {s t : State} (h : BuildingForm s) (hl : t.loader = s.loader) (hg : t.gen = s.gen)
    (hu : HitsOnly s.tables t.tables) : BuildingForm t := by
  intro e
  rw [loaderBuilding_congr hl] at e
  obtain ⟨h1, h2, h3⟩ := h e
  refine ⟨?_, hu.prior.trans h2, hg.trans h3⟩
  have he := hu.entries
  have hn := hu.generation
  rw [h1] at he hn
  cases hv : t.tables.live with
  | mk es n =>
    rw [hv] at he hn
    rw [List.map_nil, List.map_eq_nil_iff] at he
    exact congrArg₂ NumberedTable.mk he hn

theorem building_movements : KeptByMovements BuildingForm where
  takeSwitch s c h hg := building_moved h (by simp) (by rw [hg]; nofun)
  takeRevert s o h hg := building_moved h (by simp) (by rw [hg]; nofun)

theorem building_tickTrial {s : State} (h : BuildingForm s) : BuildingForm ({ s with divider := 0 } : State).tickTrial := by
  by_cases hg : s.gen.state = .steady
  · unfold State.tickTrial
    rw [show ({ s with divider := 0 } : State).gen.state = .steady from hg]
    exact h
  · exact building_moved h (by simp) hg

theorem building_folded {s t : State} {j : CrcJob} (h : BuildingForm s) (hc : CmdWell s) (hj : s.mem.crcJob = some j)
    (hf : Folded s j t) : BuildingForm t := by
  cases hf with
  | record crc _ hfor _ =>
    exact building_congr h (fun _ => building_of_phase (hc.sealWait_of_job hj hfor) nofun) rfl rfl rfl
  | failed _ _ _ _ =>
    exact fun _ => ⟨by rw [State.failRecord, failSlot_tables]; rfl, by rw [State.failRecord, failSlot_tables]; rfl,
      failSlot_gen _ _ _⟩
  | _ => exact building_loaderKept h rfl rfl rfl rfl

theorem building_act {s t : State} (h : BuildingForm s) (hc : CmdWell s) (a : Act s t) : BuildingForm t := by
  have hm := building_movements
  have hphase : ∀ {u : State} {p : LoaderPhase}, inPhase s p = true → p ≠ .switchWait → u.tables = s.tables →
      u.gen = s.gen → BuildingForm u := fun hp hne ht hg =>
    building_congr h (fun _ => building_of_phase hp hne) (by rw [ht]) (by rw [ht]) hg
  cases a with
  | quiet q => exact building_loaderKept h q.loader (by rw [q.tables]) (by rw [q.tables]) q.gen
  | fold hj hf => exact building_folded h hc (servedJob_iff.mp hj).2 hf
  | hits hu => exact building_hitsOnly h rfl rfl hu
  | commit c hr _ => exact building_idle (by simp) hr.2.2
  | abort hg => exact building_moved h rfl (by rw [hg]; nofun)
  | revert hr _ _ => exact building_idle (by simp) hr.2.2
  | confirm hg => exact building_moved h rfl (by rw [hg]; nofun)
  | tick => exact hm.tick (building_tickTrial h)
  | move _ => exact hm.takeMovement h
  | targetReset => exact hm.targetReset (by exact h) fun u hu hg => building_moved hu (by simp) (by rw [hg]; nofun)
  | accept _ => exact building_hitsOnly (hm.switchAtAccept h _) (by simp) (accept_gen _ _) (hitsOnly_accept _ _)
  | begin _ => exact building_hitsOnly h (by simp) (by simp) (hitsOnly_serve _ _)
  | romRead w _ _ =>
    exact building_hitsOnly h (by simp) (by simp) ((hitsOnly_deliver s.endRom _ _).trans' (hitsOnly_serve _ _))
  | fetchRead _ => exact building_hitsOnly h (by simp) (by simp) (hitsOnly_fetchReadEnds _ _)
  | firstSlot hz => exact hphase hz nofun rfl rfl
  | endRun o _ => exact fun e => absurd (loaderBuilding_iff.mp e).1 nofun
  | fail _ _ _ =>
    exact fun _ => ⟨by rw [failSlot_tables]; rfl, by rw [failSlot_tables]; rfl, failSlot_gen _ _ _⟩
  | body _ hh => exact hphase hh nofun rfl rfl
  | read ha _ => exact hphase (inPhase_of_atRecord ha).1 nofun rfl rfl
  | complete ha => exact hphase (inPhase_of_atRecord ha).1 nofun rfl rfl
  | segment _ ha _ _ _ => exact hphase (inPhase_of_atRecord ha).1 nofun rfl rfl
  | word w hp _ _ _ => exact hphase hp nofun rfl rfl
  | lastWord w hp _ _ _ => exact hphase hp nofun rfl rfl
  | succeed ha _ =>
    exact hm.settle fun e => absurd (loaderBuilding_iff.mp e).2 fun hne => hne rfl
  | _ => exact building_loaderKept h (by simp) (by simp) (by simp) (by simp)

end Sys2Proof.Proofs
end

section
/-! PROOF. The request in progress and what it waits for (R21 to R28, R35, R108), the target reset (R38, R90, R99) and the
presentation that stands (R20, R21), kept by every act. -/

namespace Sys2Proof.Proofs

open Sys2Proof Sys2Proof.Machine

/-! ### Fetch read claims at the arbiter -/

theorem fetchClaims_passed {a : Arbiter} (h : ∀ c, a.serving ≠ some (.fetchRead c)) :
    a.passed.fetchClaims = a.fetchClaims := by
  obtain ⟨x, f, d, w⟩ := a
  cases x with
  | none => cases f <;> cases d <;> cases w <;> rfl
  | some x =>
    cases x with
    | fetchRead c => exact absurd rfl (h c)
    | _ => cases f <;> cases d <;> cases w <;> simp [Arbiter.fetchClaims, Arbiter.passed]

/-- The one fetch read that was claimed has ended. -/
theorem fetchClaims_passed_served {a : Arbiter} {c : FetchClaim} (h : a.serving = some (.fetchRead c))
    (hl : a.fetchClaims.length ≤ 1) : a.passed.fetchClaims = [] ∧ a.fetchClaims = [c] := by
  obtain ⟨x, f, d, w⟩ := a
  subst h
  cases f with
  | some e => simp [Arbiter.fetchClaims] at hl
  | none => cases d <;> cases w <;> simp [Arbiter.fetchClaims, Arbiter.passed]

theorem fetchClaims_idled (a : Arbiter) : a.idled.fetchClaims = a.fetchClaims := by
  unfold Arbiter.idled
  split
  · rename_i h
    exact fetchClaims_passed (by rw [h]; nofun)
  · rfl

theorem fetchClaims_dataAsked (a : Arbiter) : a.dataAsked.fetchClaims = a.fetchClaims := by
  unfold Arbiter.dataAsked
  split
  · rfl
  · rename_i h
    exact fetchClaims_passed (a := { a with dataWaits := true }) fun c e => h (by
      rw [show a.serving = some (.fetchRead c) from e]; rfl)

theorem fetchClaims_asked (a : Arbiter) : a.asked.fetchClaims = a.fetchClaims := by
  unfold Arbiter.asked
  split
  · rfl
  · rename_i h
    exact fetchClaims_passed (a := { a with crcWaits := true }) fun c e => h (by
      rw [show a.serving = some (.fetchRead c) from e]; rfl)

/-- The CRC read that had the port has ended, and the next one is claimed. -/
theorem fetchClaims_asked_served {a : Arbiter} (h : a.serving = some .crcRead) :
    ({ a with serving := none } : Arbiter).asked.fetchClaims = a.fetchClaims := by
  rw [fetchClaims_asked]
  simp [Arbiter.fetchClaims, h]

theorem fetchClaims_fetchAsked {a : Arbiter} (h : a.fetchClaims = []) (c : FetchClaim) :
    (a.fetchAsked c).fetchClaims = [c] := by
  obtain ⟨x, f, d, w⟩ := a
  cases f with
  | some e => simp [Arbiter.fetchClaims] at h
  | none =>
    cases x with
    | none => rfl
    | some x => cases x with
      | fetchRead e => simp [Arbiter.fetchClaims] at h
      | _ => rfl

theorem fetchClaims_requestEnded (s : State) : (requestEnded s).mem.arbiter.fetchClaims = [] := by
  simp only [requestEnded, Arbiter.fetchClaims]
  cases s.mem.arbiter.serving with
  | none => rfl
  | some x => cases x <;> rfl

/-! ### The words of a request -/

/-- R21 to R28, R35, R108 together. -/
abbrev WordsWell (s : State) : Prop := LatchForm s ∧ fetchForm s = true

theorem wordsWell_none {s : State} (h : s.fetch.request = none) :
    WordsWell s ↔ s.fetch.romCycle = .none ∧ s.mem.arbiter.fetchClaims = [] := by
  simp [WordsWell, LatchForm, fetchForm, h]

theorem wordsWell_read {s : State} {r : Request} (h : s.fetch.request = some r) (hd : r.dir = .read) :
    WordsWell s ↔ (r.latch = s.tables.live.generation ∧ 1 ≤ r.left ∧ r.left ≤ fetchWords r.length)
      ∧ (s.fetch.romCycle = .none ∨ s.fetch.romAddress = r.address)
      ∧ ((s.resolveWord r).waits = true ∨ r.left = fetchWords r.length)
      ∧ (s.fetch.romCycle, s.mem.arbiter.fetchClaims) = (s.resolveWord r).awaited := by
  simp [WordsWell, LatchForm, fetchForm, h, hd]

theorem wordsWell_write {s : State} {r : Request} (h : s.fetch.request = some r) (hd : r.dir = .write) :
    WordsWell s ↔ (r.latch = s.tables.live.generation ∧ 1 ≤ r.left ∧ r.left ≤ fetchWords r.length)
      ∧ (s.fetch.romCycle = .none ∨ s.fetch.romAddress = r.address)
      ∧ rweAsserted s = true ∧ s.mem.arbiter.fetchClaims = [] := by
  simp [WordsWell, LatchForm, fetchForm, h, hd]

theorem resolveWord_congr {s t : State} (he : t.tables.live.entries.map Entry.unhit = s.tables.live.entries.map Entry.unhit)
    (r : Request) : t.resolveWord r = s.resolveWord r := resolve_congr he _ _

/-- The request and what it waits for as before, against a LIVE that differs in hits alone. -/
theorem wordsWell_congr {s t : State} (h : WordsWell s) (hr : t.fetch.request = s.fetch.request)
    (hc : t.fetch.romCycle = s.fetch.romCycle) (ha : t.fetch.romAddress = s.fetch.romAddress)
    (hf : t.mem.arbiter.fetchClaims = s.mem.arbiter.fetchClaims)
    (hg : t.tables.live.generation = s.tables.live.generation)
    (he : t.tables.live.entries.map Entry.unhit = s.tables.live.entries.map Entry.unhit) : WordsWell t := by
  cases hs : s.fetch.request with
  | none =>
    rw [wordsWell_none (hr.trans hs), hc, hf]
    exact (wordsWell_none hs).mp h
  | some r =>
    cases hd : r.dir with
    | read =>
      rw [wordsWell_read (hr.trans hs) hd, hc, hf, ha, hg, resolveWord_congr he]
      exact (wordsWell_read hs hd).mp h
    | write =>
      rw [wordsWell_write (hr.trans hs) hd, hf, ha, hg, rweAsserted, hc]
      exact (wordsWell_write hs hd).mp h

/-- Fetch port, fetch read claims and LIVE as before. -/
theorem wordsWell_kept {s t : State} (h : WordsWell s) (hf : t.fetch = s.fetch)
    (hc : t.mem.arbiter.fetchClaims = s.mem.arbiter.fetchClaims) (hl : t.tables.live = s.tables.live) : WordsWell t :=
  wordsWell_congr h (by rw [hf]) (by rw [hf]) (by rw [hf]) hc (by rw [hl]) (by rw [hl])

theorem awaited_claims_length (x : Resolution) : x.awaited.2.length ≤ 1 := by
  cases x <;> simp [Resolution.awaited]

/-- A request has at most one fetch read claim. -/
theorem fetchClaims_length {s : State} (h : WordsWell s) : s.mem.arbiter.fetchClaims.length ≤ 1 := by
  cases hs : s.fetch.request with
  | none => rw [((wordsWell_none hs).mp h).2]; exact Nat.zero_le _
  | some r =>
    cases hd : r.dir with
    | read =>
      obtain ⟨-, -, -, hw⟩ := (wordsWell_read hs hd).mp h
      have hc : s.mem.arbiter.fetchClaims = (s.resolveWord r).awaited.2 := congrArg Prod.snd hw
      rw [hc]
      exact awaited_claims_length _
    | write =>
      obtain ⟨-, -, -, hc⟩ := (wordsWell_write hs hd).mp h
      rw [hc]
      exact Nat.zero_le _

/-- With an empty LIVE no word is read from patch RAM. -/
theorem fetchClaims_of_empty {s : State} (h : WordsWell s) (he : s.tables.live.entries = []) :
    s.mem.arbiter.fetchClaims = [] := by
  cases hs : s.fetch.request with
  | none => exact ((wordsWell_none hs).mp h).2
  | some r =>
    cases hd : r.dir with
    | read =>
      obtain ⟨-, -, -, hw⟩ := (wordsWell_read hs hd).mp h
      have hp : s.resolveWord r = .passthrough := by unfold State.resolveWord; rw [he]; rfl
      rw [hp] at hw
      exact congrArg Prod.snd hw
    | write => exact ((wordsWell_write hs hd).mp h).2.2.2

/-! #### Serving -/

/-- A read request about to be served from its current word on, or its end. -/
structure Serving (s : State) : Prop where
  cycle : s.fetch.romCycle = .none
  claims : s.mem.arbiter.fetchClaims = []
  request : ∀ r, s.fetch.request = some r →
    (r.latch = s.tables.live.generation ∧ 1 ≤ r.left ∧ r.left ≤ fetchWords r.length) ∧ r.dir = .read

/-- R25 to R28: the access of a word that waits is started. -/
theorem wordsWell_startWord {s : State} {r : Request} (h : Serving s) (hr : s.fetch.request = some r)
    (hw : (s.resolveWord r).waits = true) : WordsWell s.startWord := by
  obtain ⟨hform, hd⟩ := h.request r hr
  have hs := startWord_eq hr
  have hx : resolve s.tables.live.entries r.address r.kind = s.resolveWord r := rfl
  rw [hx] at hs
  have hrom : ∀ {t : State}, t = { s with fetch := { s.fetch with romAddress := r.address, romCycle := .read } } →
      (s.resolveWord r).awaited = (.read, []) → WordsWell t := by
    intro t ht ha
    have hx : t.resolveWord r = s.resolveWord r := by rw [ht]; rfl
    refine (wordsWell_read (r := r) (by rw [ht]; exact hr) hd).mpr
      ⟨by rw [ht]; exact hform, .inr (by rw [ht]), .inl (by rw [hx]; exact hw), ?_⟩
    rw [hx, ha, ht]
    exact Prod.ext rfl h.claims
  cases hres : s.resolveWord r with
  | passthrough => rw [hres] at hs; exact hrom hs (by rw [hres]; rfl)
  | countOnly i => rw [hres] at hs; exact hrom hs (by rw [hres]; rfl)
  | replace k o i =>
    rw [hres] at hs
    generalize s.startWord = t at hs ⊢
    have hs : t = { s with mem := { s.mem with arbiter := s.mem.arbiter.fetchAsked { handle := k, offset := o } } } := hs
    have hx : t.resolveWord r = s.resolveWord r := by rw [hs]; rfl
    refine (wordsWell_read (r := r) (by rw [hs]; exact hr) hd).mpr
      ⟨by rw [hs]; exact hform, .inl (by rw [hs]; exact h.cycle), .inl (by rw [hx]; exact hw), ?_⟩
    rw [hx, hres, hs]
    exact Prod.ext h.cycle (fetchClaims_fetchAsked h.claims _)
  | fill v i => rw [hres] at hw; cases hw
  | trap v i => rw [hres] at hw; cases hw

theorem deliver_fetch (s : State) (r : Request) (w : Word) :
    (s.deliver r w).fetch = { s.fetch with
      beats := s.fetch.beats ++ [{ address := r.address, data := some w }], request := r.next } := by
  simp [State.deliver, State.beat, State.setFetch]

theorem serving_deliver {s : State} {r : Request} (hc : s.fetch.romCycle = .none) (hf : s.mem.arbiter.fetchClaims = [])
    (hform : r.latch = s.tables.live.generation ∧ 1 ≤ r.left ∧ r.left ≤ fetchWords r.length) (hd : r.dir = .read)
    (w : Word) : Serving (s.deliver r w) := by
  have hg : (s.deliver r w).tables.live.generation = s.tables.live.generation := (hitsOnly_deliver s r w).generation
  refine ⟨by rw [deliver_fetch]; exact hc, by rw [State.deliver_mem]; exact hf, fun q hq => ?_⟩
  obtain ⟨hlatch, h1, h2⟩ := hform
  rw [deliver_request, next_eq h1] at hq
  split at hq
  · cases hq
  · cases hq
    exact ⟨⟨hlatch.trans hg.symm, by simp only; omega, by simp only; omega⟩, hd⟩

theorem wordsWell_serve (n : Nat) {s : State} (h : Serving s) (hn : ∀ r, s.fetch.request = some r → r.left ≤ n) :
    WordsWell (serve n s) := by
  induction n generalizing s with
  | zero =>
    cases hr : s.fetch.request with
    | none => exact (wordsWell_none hr).mpr ⟨h.cycle, h.claims⟩
    | some r =>
      have := (h.request r hr).1.2.1
      have := hn r hr
      omega
  | succ n ih =>
    cases hr : s.fetch.request with
    | none =>
      simp only [serve, hr]
      exact (wordsWell_none hr).mpr ⟨h.cycle, h.claims⟩
    | some r =>
      obtain ⟨hform, hd⟩ := h.request r hr
      have hnext : ∀ w, WordsWell (serve n (s.deliver r w)) := fun w => by
        refine ih (serving_deliver h.cycle h.claims hform hd w) fun q hq => ?_
        have := hn r hr
        rw [deliver_request, next_eq hform.2.1] at hq
        split at hq
        · cases hq
        · cases hq
          simp only
          omega
      have hstart : (s.resolveWord r).waits = true → WordsWell s.startWord := wordsWell_startWord h hr
      simp only [serve, hr]
      cases hres : s.resolveWord r with
      | fill v i => exact hnext v
      | trap v i => exact hnext v
      | _ => exact hstart (by rw [hres]; rfl)

/-- R20: a request has at most eight words. -/
theorem wordsWell_serve_eight {s : State} (h : Serving s) : WordsWell (serve 8 s) :=
  wordsWell_serve 8 h fun r hr => (h.request r hr).1.2.2.trans (fetchWords_le _)

/-! #### Movements at fetch idle -/

theorem wordsWell_movements : KeptByMovements fun s => s.fetch.request = none ∧ WordsWell s where
  takeSwitch s c h _ := by
    obtain ⟨hr, hw⟩ := h
    have hr' : (s.takeSwitch c).fetch.request = none := by simpa using hr
    exact ⟨hr', (wordsWell_none hr').mpr (by simpa using (wordsWell_none hr).mp hw)⟩
  takeRevert s o h _ := by
    obtain ⟨hr, hw⟩ := h
    have hr' : (s.takeRevert o).fetch.request = none := by simpa using hr
    exact ⟨hr', (wordsWell_none hr').mpr (by simpa using (wordsWell_none hr).mp hw)⟩

theorem wordsWell_settle {s : State} (h : WordsWell s) : WordsWell s.settle := by
  rcases settle_cases s with e | ⟨hr, -, -, e⟩
  · rwa [e]
  · rw [e]
    exact (wordsWell_movements.takeMovement ⟨hr, h⟩).2

/-! #### The acts -/

/-- R35: the next word of a write request in its ROM write cycle. -/
theorem wordsWell_startWrite {s : State} {r : Request} (hr : s.fetch.request = some r) (hd : r.dir = .write)
    (hform : r.latch = s.tables.live.generation ∧ 1 ≤ r.left ∧ r.left ≤ fetchWords r.length)
    (hf : s.mem.arbiter.fetchClaims = []) (w : Word) : WordsWell (s.startRom r.address (.write w)) :=
  (wordsWell_write (s := s.startRom r.address (.write w)) hr hd).mpr ⟨hform, .inr rfl, rfl, hf⟩

theorem wordsWell_accept {s : State} {p : Presentation} (h : WordsWell s) (hr : s.fetch.request = none) :
    WordsWell (s.accept p) := by
  obtain ⟨hr', hw'⟩ := wordsWell_movements.switchAtAccept ⟨hr, h⟩ p
  obtain ⟨-, hf⟩ := (wordsWell_none hr').mp hw'
  obtain ⟨hc, -⟩ := (wordsWell_none hr).mp h
  have h1 : 1 ≤ fetchWords p.length := by cases p.length <;> decide
  unfold State.accept
  dsimp only
  split
  · rename_i hd
    have hsv : Serving ((s.switchAtAccept p).setFetch { s.fetch with
        standing := none, request := some (p.request (s.switchAtAccept p).tables.live.generation), beats := [] }) :=
      ⟨hc, hf, fun r e => by cases e; exact ⟨⟨rfl, h1, le_rfl⟩, hd⟩⟩
    split
    · generalize ht : State.setFetch _ _ = t at hsv
      have hrt : t.fetch.request = some (p.request (s.switchAtAccept p).tables.live.generation) := by rw [← ht]; rfl
      by_cases hw : (t.resolveWord (p.request (s.switchAtAccept p).tables.live.generation)).waits = true
      · exact wordsWell_startWord hsv hrt hw
      · have hst : t.startWord = t ∧
            (t.resolveWord (p.request (s.switchAtAccept p).tables.live.generation)).awaited = (.none, []) := by
          unfold State.startWord
          rw [hrt]
          dsimp only
          split <;> rename_i hx <;> rw [hx] at hw ⊢ <;> first | exact ⟨rfl, rfl⟩ | exact absurd rfl hw
        rw [hst.1, wordsWell_read hrt hd, hst.2]
        exact ⟨(hsv.request _ hrt).1, .inl hsv.cycle, .inr rfl, Prod.ext hsv.cycle hsv.claims⟩
    · exact wordsWell_serve_eight hsv
  · rename_i hd
    exact wordsWell_startWrite (s := (s.switchAtAccept p).setFetch { s.fetch with
      standing := none, request := some (p.request (s.switchAtAccept p).tables.live.generation), beats := [] })
      rfl hd ⟨rfl, h1, le_rfl⟩ hf _

/-- R29: the first word of a request accepted with a switch is ready at once. -/
theorem wordsWell_begin {s : State} (h : WordsWell s) (hr : wordReady s = true) : WordsWell (serve 8 s) := by
  unfold wordReady at hr
  split at hr
  · cases hr
  · rename_i r hs
    simp only [Bool.and_eq_true, beq_iff_eq, Bool.not_eq_true'] at hr
    obtain ⟨hd, hw⟩ := hr
    obtain ⟨hform, -, -, ha⟩ := (wordsWell_read hs hd).mp h
    have hn : (s.resolveWord r).awaited = (.none, []) := by
      cases hx : s.resolveWord r <;> first | rfl | (rw [hx] at hw; cases hw)
    rw [hn] at ha
    refine wordsWell_serve_eight ⟨congrArg Prod.fst ha, congrArg Prod.snd ha, fun q hq => ?_⟩
    rw [hs] at hq
    cases hq
    exact ⟨hform, hd⟩

theorem wordsWell_romRead {s : State} {r : Request} (h : WordsWell s) (hc : s.fetch.romCycle = .read)
    (hr : s.fetch.request = some r) (w : Word) : WordsWell (s.romReadEnds r w) := by
  cases hd : r.dir with
  | write =>
    obtain ⟨-, -, hw, -⟩ := (wordsWell_write hr hd).mp h
    rw [rweAsserted, hc] at hw
    cases hw
  | read =>
    obtain ⟨hform, -, -, ha⟩ := (wordsWell_read hr hd).mp h
    have hf : s.mem.arbiter.fetchClaims = [] := by
      cases hx : s.resolveWord r with
      | passthrough => rw [hx] at ha; exact congrArg Prod.snd ha
      | countOnly i => rw [hx] at ha; exact congrArg Prod.snd ha
      | _ =>
        rw [hx] at ha
        have := hc.symm.trans (congrArg Prod.fst ha)
        cases this
    exact wordsWell_serve_eight (serving_deliver (s := s.endRom) rfl hf hform hd w)

theorem wordsWell_romWrite {s : State} {r : Request} {w : Word} (h : WordsWell s) (hc : s.fetch.romCycle = .write w)
    (hr : s.fetch.request = some r) (fd : Word) : WordsWell (s.romWriteEnds r w fd) := by
  cases hd : r.dir with
  | read =>
    obtain ⟨-, -, -, ha⟩ := (wordsWell_read hr hd).mp h
    have := hc.symm.trans (congrArg Prod.fst ha)
    cases hx : s.resolveWord r <;> rw [hx] at this <;> cases this
  | write =>
    obtain ⟨⟨hlatch, h1, h2⟩, -, -, hf⟩ := (wordsWell_write hr hd).mp h
    unfold State.romWriteEnds
    generalize hm : (s.endRom.logShadow r w).beat r none = m
    have hmr : m.fetch.request = r.next := by rw [← hm]; rfl
    have hmc : m.fetch.romCycle = .none := by
      rw [← hm]
      change (s.endRom.logShadow r w).fetch.romCycle = _
      rw [State.logShadow_fetch]
      rfl
    have hmf : m.mem.arbiter.fetchClaims = [] := by rw [← hm]; simpa using hf
    have hml : m.tables = s.tables := by rw [← hm]; simp
    rw [next_eq h1] at hmr
    by_cases hlast : r.left = 1
    · rw [if_pos hlast] at hmr
      have hend : m.nextWrite fd = m := by unfold State.nextWrite; rw [hmr]
      rw [hend]
      exact (wordsWell_none hmr).mpr ⟨hmc, hmf⟩
    · rw [if_neg hlast] at hmr
      have hgo : m.nextWrite fd = m.startRom ({ r with left := r.left - 1 } : Request).address (.write fd) := by
        unfold State.nextWrite; rw [hmr]
      rw [hgo]
      exact wordsWell_startWrite hmr hd ⟨by rw [hml]; exact hlatch, by simp only; omega, by simp only; omega⟩ hmf _

theorem wordsWell_fetchRead {s : State} {c : FetchClaim} (h : WordsWell s)
    (hs : s.mem.arbiter.serving = some (.fetchRead c)) : WordsWell (s.fetchReadEnds c) := by
  obtain ⟨hp, hcl⟩ := fetchClaims_passed_served hs (fetchClaims_length h)
  have hf : s.freePort.mem.arbiter.fetchClaims = [] := by rw [freePort_eq]; exact hp
  unfold State.fetchReadEnds
  dsimp only
  split
  · rename_i hr
    have hr : s.fetch.request = none := hr
    exact (wordsWell_none (s := s.freePort) hr).mpr ⟨((wordsWell_none hr).mp h).1, hf⟩
  · rename_i r hr
    have hr : s.fetch.request = some r := hr
    cases hd : r.dir with
    | write =>
      obtain ⟨-, -, -, hn⟩ := (wordsWell_write hr hd).mp h
      rw [hn] at hcl
      cases hcl
    | read =>
      obtain ⟨hform, -, -, ha⟩ := (wordsWell_read hr hd).mp h
      have hc : s.fetch.romCycle = .none := by
        cases hx : s.resolveWord r with
        | replace k o i => rw [hx] at ha; exact congrArg Prod.fst ha
        | _ =>
          rw [hx] at ha
          have := hcl.symm.trans (congrArg Prod.snd ha)
          cases this
      exact wordsWell_serve_eight (serving_deliver (s := s.freePort) hc hf hform hd _)

/-- R171: a failed slot finds no fetch read claim, for LIVE is empty until the loader's commit. -/
theorem wordsWell_failSlot {s : State} (h : WordsWell s) (hb : BuildingForm s) (hl : loaderBuilding s = true)
    (r : SlotResult) (i : Nat) : WordsWell (s.failSlot r i) := by
  obtain ⟨hlive, -, -⟩ := hb hl
  have hfetch : (s.failSlot r i).fetch = s.fetch := by
    unfold State.failSlot
    simp
  refine wordsWell_kept h hfetch ?_ (by rw [failSlot_tables, hlive]; rfl)
  rw [failSlot_mem, fetchClaims_of_empty h (by rw [hlive])]
  rfl

theorem wordsWell_folded {s t : State} {j : CrcJob} (h : WordsWell s) (hb : BuildingForm s) (hc : CmdWell s)
    (hs : servedJob s = some j) (hf : Folded s j t) : WordsWell t := by
  obtain ⟨hserv, hj⟩ := servedJob_iff.mp hs
  have hpass : s.mem.arbiter.passed.fetchClaims = s.mem.arbiter.fetchClaims := fetchClaims_passed (by rw [hserv]; nofun)
  have hdec : ∀ crc, WordsWell (sealDecided s j crc) := fun crc => wordsWell_kept h rfl hpass rfl
  cases hf with
  | next rem _ => exact wordsWell_kept h rfl (fetchClaims_asked_served hserv) rfl
  | record crc _ _ _ => exact wordsWell_kept (hdec crc) rfl rfl rfl
  | failed crc _ hfor _ =>
    have hl := building_of_phase (hc.sealWait_of_job hj hfor) nofun
    exact wordsWell_failSlot (hdec crc) (building_loaderKept hb rfl rfl rfl rfl)
      ((loaderBuilding_congr (s := s) rfl).trans hl) _ _
  | answered crc _ _ _ _ => exact wordsWell_kept (hdec crc) rfl rfl rfl

theorem acceptable_open {s : State} {p : Presentation} (h : acceptable s = some p) :
    s.fetch.request = none ∧ s.pins.trst = false ∧ s.pins.xrst = false ∧ s.fetch.standing = some p := by
  unfold acceptable at h
  split at h
  · cases h
  · rename_i hn
    simp only [Bool.or_eq_true, not_or, Bool.not_eq_true, Option.isSome_eq_false_iff, Option.isNone_iff_eq_none] at hn
    exact ⟨hn.1.1, hn.1.2, hn.2, h⟩

theorem wordsWell_act {s t : State} (h : WordsWell s) (hb : BuildingForm s) (hc : CmdWell s) (a : Act s t) :
    WordsWell t := by
  cases a with
  | quiet q => exact wordsWell_kept h q.fetch (by rw [q.arbiter]) (by rw [q.tables])
  | portIdled => exact wordsWell_kept h rfl (fetchClaims_idled _) rfl
  | portAsked => exact wordsWell_kept h rfl ((fetchClaims_dataAsked _).trans (fetchClaims_idled _)) rfl
  | discard hs => rw [freePort_eq]; exact wordsWell_kept h rfl (fetchClaims_passed (by rw [hs]; nofun)) rfl
  | sealStart e _ _ _ _ =>
    exact wordsWell_kept h rfl ((congrArg Arbiter.fetchClaims (claimCrc_eq _)).trans (fetchClaims_asked _)) rfl
  | fold hj hf => exact wordsWell_folded h hb hc hj hf
  | hits hu => exact wordsWell_congr h rfl rfl rfl rfl hu.generation hu.entries
  | commit c _ _ => exact wordsWell_settle (wordsWell_kept (s := s) h rfl rfl rfl)
  | revert _ _ _ => exact wordsWell_settle (wordsWell_kept (s := s) h rfl rfl rfl)
  | tick =>
    have ht : WordsWell ({ s with divider := 0 } : State).tickTrial := wordsWell_kept h (by simp) (by simp) (by simp)
    unfold State.tick
    dsimp only
    split
    · exact wordsWell_settle ht
    · exact ht
  | move hr => exact (wordsWell_movements.takeMovement ⟨hr, h⟩).2
  | targetReset =>
    refine (wordsWell_movements.targetReset ⟨rfl, ?_⟩ fun u hu _ => ?_).2
    · exact (wordsWell_none rfl).mpr ⟨rfl, fetchClaims_requestEnded s⟩
    · exact ⟨by simpa using hu.1, wordsWell_kept hu.2 (by simp) (by simp) (by simp)⟩
  | stand p => exact wordsWell_congr h rfl rfl rfl rfl rfl rfl
  | withdraw => exact wordsWell_congr h rfl rfl rfl rfl rfl rfl
  | accept ha => exact wordsWell_accept h (acceptable_open ha).1
  | begin hr => exact wordsWell_begin h hr
  | romRead w hcy hr => exact wordsWell_romRead h hcy hr w
  | romWrite fd hcy hr => exact wordsWell_romWrite h hcy hr fd
  | fetchRead hs => exact wordsWell_fetchRead h hs
  | fail r i hr =>
    have hl : loaderBuilding s = true := by
      rcases hr with hr | hr
      · exact building_of_phase hr nofun
      · exact building_of_phase hr nofun
    exact wordsWell_failSlot h hb hl r i
  | word w _ _ _ _ =>
    refine wordsWell_kept h rfl ?_ rfl
    rw [loadWord_arbiter, fetchClaims_dataAsked, fetchClaims_idled]
  | @lastWord p r w _ _ _ _ =>
    refine wordsWell_kept h rfl ?_ rfl
    have ha : ((s.loadWord p w).loaderSeal p r).mem.arbiter = (s.loadWord p w).mem.arbiter.claimCrc := rfl
    rw [ha, claimCrc_eq, fetchClaims_asked, loadWord_arbiter, fetchClaims_dataAsked, fetchClaims_idled]
  | succeed _ _ => exact wordsWell_settle (wordsWell_kept (s := s) h rfl rfl rfl)
  | _ => exact wordsWell_kept h (by simp) (by simp) (by simp)

/-! ### Target reset (R38, R90, R99) -/

theorem movementWaits_takeMovement (s : State) : movementWaits s.takeMovement = false := by
  unfold State.takeMovement
  cases hg : s.gen.state with
  | steady => simp [movementWaits, hg]
  | probation => simp [movementWaits, hg]
  | commitPending c =>
    dsimp only
    split
    · rw [State.takeSwitch_eq]
      exact movementWaits_switchedState _ _ _
    · rename_i hm
      simp [movementWaits, hg, hm]
  | revertWaiting o =>
    simp [movementWaits]

/-- Nothing is accepted in target reset, so a movement that waits is taken at once. -/
theorem target_settle {s : State} (h : s.pins.trst = true → s.fetch.request = none) : TargetForm s.settle := by
  intro ht
  rw [State.settle_pins] at ht
  refine ⟨by rw [State.settle_fetch]; exact h ht, ?_⟩
  cases hm : movementWaits s with
  | false => rw [settle_quiet hm]; exact hm
  | true => rw [settle_moves (h ht) hm (acceptable_none_of_trst ht)]; exact movementWaits_takeMovement s

theorem target_congr {s t : State} (h : TargetForm s) (hp : t.pins.trst = s.pins.trst)
    (hr : t.fetch.request = s.fetch.request) (hm : movementWaits t = true → movementWaits s = true) : TargetForm t := by
  intro ht
  obtain ⟨h1, h2⟩ := h (hp ▸ ht)
  refine ⟨hr.trans h1, ?_⟩
  by_contra hne
  exact absurd (hm (Bool.eq_true_of_not_eq_false hne)) (by rw [h2]; nofun)

theorem target_kept {s t : State} (h : TargetForm s) (hp : t.pins = s.pins) (hf : t.fetch = s.fetch) (hg : t.gen = s.gen) :
    TargetForm t := target_congr h (by rw [hp]) (by rw [hf]) (by rw [movementWaits_congr hg]; exact id)

/-- No movement waits. -/
theorem target_unmoved {s t : State} (h : TargetForm s) (hp : t.pins.trst = s.pins.trst)
    (hr : t.fetch.request = s.fetch.request) (hm : movementWaits t = false) : TargetForm t :=
  target_congr h hp hr (by rw [hm]; nofun)

/-- With a request in progress TRST# is released. -/
theorem target_of_request {s t : State} {r : Request} (h : TargetForm s) (hr : s.fetch.request = some r)
    (hp : t.pins.trst = s.pins.trst) : TargetForm t := by
  intro ht
  have := (h (hp ▸ ht)).1
  rw [hr] at this
  cases this

theorem movementWaits_tickTrial {s : State} (h : expiryDue s = false) :
    movementWaits ({ s with divider := 0 } : State).tickTrial = movementWaits s := by
  unfold State.tickTrial
  split
  · rfl
  · rfl
  · rename_i hg
    have hg : s.gen.state = .probation := hg
    split
    · rename_i h1
      have h1 : s.gen.timer = 1 := h1
      simp [expiryDue, hg, h1] at h
    · split
      · rfl
      · simp [movementWaits, hg]
  · rfl

theorem targetResetGen_trst (s : State) : s.targetResetGen.pins = s.pins := by
  unfold State.targetResetGen
  (repeat' split) <;> simp

theorem targetResetGen_request (s : State) : s.targetResetGen.fetch = s.fetch := by
  unfold State.targetResetGen
  (repeat' split) <;> simp

theorem target_failSlot {s : State} (h : TargetForm s) (r : SlotResult) (i : Nat) : TargetForm (s.failSlot r i) := by
  refine target_unmoved h ?_ ?_ (by rw [movementWaits, failSlot_gen]; rfl)
  · unfold State.failSlot; simp
  · unfold State.failSlot; simp

theorem target_folded {s t : State} {j : CrcJob} (h : TargetForm s) (hf : Folded s j t) : TargetForm t := by
  cases hf with
  | failed crc _ _ _ => exact target_failSlot (s := sealDecided s j crc) h _ _
  | _ => exact h

theorem wordReady_some {s : State} (h : wordReady s = true) : ∃ r, s.fetch.request = some r := by
  unfold wordReady at h
  split at h
  · cases h
  · exact ⟨_, ‹_›⟩

theorem romReadEnds_pins (s : State) (r : Request) (w : Word) : (s.romReadEnds r w).pins = s.pins := by
  simp [State.romReadEnds]

theorem romWriteEnds_pins (s : State) (r : Request) (w fd : Word) : (s.romWriteEnds r w fd).pins = s.pins := by
  simp [State.romWriteEnds]

theorem fetchReadEnds_pins (s : State) (c : FetchClaim) : (s.fetchReadEnds c).pins = s.pins := by
  unfold State.fetchReadEnds
  dsimp only
  split <;> simp

theorem target_act {s t : State} (h : TargetForm s) (hw : WordsWell s) (a : Act s t) : TargetForm t := by
  cases a with
  | quiet q => exact target_kept h q.pins q.fetch q.gen
  | fold _ hf => exact target_folded h hf
  | commit c _ _ => exact target_settle fun ht => (h ht).1
  | abort _ => exact target_unmoved h rfl rfl rfl
  | revert _ _ _ => exact target_settle fun ht => (h ht).1
  | confirm _ => exact target_unmoved h rfl rfl rfl
  | tick =>
    unfold State.tick
    dsimp only
    split
    · exact target_settle fun ht => by simpa using (h (by simpa using ht)).1
    · rename_i hx
      exact target_congr h (by simp) (by simp) (by rw [movementWaits_tickTrial (by simpa using hx)]; exact id)
  | move hr => exact target_unmoved h (by simp) (by simp) (movementWaits_takeMovement s)
  | targetReset =>
    rw [targetReset_eq]
    exact target_settle fun _ => by rw [targetResetGen_request]; rfl
  | targetRelease => exact nofun
  | stand p => exact target_congr h rfl rfl id
  | withdraw => exact target_congr h rfl rfl id
  | accept ha =>
    intro ht
    rw [State.accept_pins, (acceptable_open ha).2.1] at ht
    cases ht
  | begin hr =>
    obtain ⟨r, hr⟩ := wordReady_some hr
    exact target_of_request h hr (by simp)
  | romRead w _ hr => exact target_of_request h hr (by rw [romReadEnds_pins])
  | romWrite fd _ hr => exact target_of_request h hr (by rw [romWriteEnds_pins])
  | fetchRead hs =>
    cases hr : s.fetch.request with
    | some r => exact target_of_request h hr (by rw [fetchReadEnds_pins])
    | none =>
      have hcl := (fetchClaims_passed_served hs (fetchClaims_length hw)).2
      rw [((wordsWell_none hr).mp hw).2] at hcl
      cases hcl
  | fail r i _ => exact target_failSlot h r i
  | succeed _ _ => exact target_settle fun ht => (h ht).1
  | _ => exact target_kept h (by simp) (by simp) (by simp)

/-! ### The presentation that stands (R20, R21) -/

theorem presence_congr {s t : State} (h : PresenceForm s) (hp : t.pins.freq = s.pins.freq)
    (hs : t.fetch.standing = s.fetch.standing) : PresenceForm t := by
  rw [PresenceForm, hp, hs]
  exact h

theorem presence_settle {s : State} (h : PresenceForm s) : PresenceForm s.settle :=
  presence_congr h (by simp) (by simp)

theorem deliver_standing (s : State) (r : Request) (w : Word) : (s.deliver r w).fetch.standing = s.fetch.standing := by
  rw [deliver_fetch]

theorem fetchReadEnds_standing (s : State) (c : FetchClaim) : (s.fetchReadEnds c).fetch.standing = s.fetch.standing := by
  unfold State.fetchReadEnds
  dsimp only
  split
  · rfl
  · rw [serve_standing, deliver_standing]
    rfl

theorem romWriteEnds_standing (s : State) (r : Request) (w fd : Word) :
    (s.romWriteEnds r w fd).fetch.standing = s.fetch.standing := by
  have h : ((s.endRom.logShadow r w).beat r none).fetch.standing = s.fetch.standing := by
    change (s.endRom.logShadow r w).fetch.standing = _
    rw [State.logShadow_fetch]
    rfl
  unfold State.romWriteEnds State.nextWrite
  split
  · exact h
  · exact h

/-- R21: an accepted presentation stands no more. -/
theorem accept_standing (s : State) (p : Presentation) : (s.accept p).fetch.standing = none := by
  unfold State.accept
  dsimp only
  split
  · split
    · rw [State.startWord_standing]; rfl
    · rw [serve_standing]; rfl
  · rfl

theorem presence_act {s t : State} (h : PresenceForm s) (a : Act s t) : PresenceForm t := by
  cases a with
  | quiet q => exact presence_congr h (by rw [q.pins]) (by rw [q.fetch])
  | fold _ hf => cases hf <;> exact presence_congr h (by simp [sealDecided, wordFolded]) (by simp [sealDecided, wordFolded])
  | stand p => exact fun _ => rfl
  | withdraw => exact nofun
  | tick =>
    unfold State.tick
    dsimp only
    split
    · exact presence_settle (presence_congr h (by simp) (by simp))
    · exact presence_congr h (by simp) (by simp)
  | targetReset =>
    rw [targetReset_eq]
    exact presence_settle (presence_congr h (by rw [targetResetGen_trst]; rfl) (by rw [targetResetGen_request]; rfl))
  | accept _ =>
    intro hs
    rw [accept_standing] at hs
    cases hs
  | romRead w _ _ =>
    exact presence_congr h (by rw [romReadEnds_pins]) (by rw [State.romReadEnds, serve_standing, deliver_standing]; rfl)
  | romWrite fd _ _ => exact presence_congr h (by rw [romWriteEnds_pins]) (romWriteEnds_standing _ _ _ _)
  | fetchRead _ => exact presence_congr h (by rw [fetchReadEnds_pins]) (fetchReadEnds_standing _ _)
  | succeed _ _ => exact presence_settle (presence_congr (s := s) h rfl rfl)
  | _ => exact presence_congr h (by simp) (by simp)

end Sys2Proof.Proofs
end

section
/-! PROOF. Every form of Safety.lean together: what a reset gives, what each act keeps, and so every step. -/

namespace Sys2Proof.Proofs

open Sys2Proof Sys2Proof.Machine

/-- The forms of Safety.lean, block by block. -/
structure Forms (s : State) : Prop where
  memory : MemoryForm s
  tables : TablesWell s.tables
  backing : Backing s
  runs : RunsWell s
  lengths : LengthsForm s
  gen : GenWell s
  log : s.log.form = true
  words : WordsWell s
  target : TargetForm s
  presence : PresenceForm s
  cmd : CmdWell s
  loader : LoaderForm s
  body : BodyWell s
  building : BuildingForm s
  port : PortWell s
  chipReset : ChipResetForm s

theorem inv_iff {s : State} : Inv s ↔ Forms s := by
  constructor
  · rintro ⟨hmem, htab, hnum, href, hback, hcond, hruns, hlen, hptr, hlock, hprior, htrial, hlog, hlatch, hfetch, htarget,
      hheld, hunheld, hseal, hloader, hprog, hmap, hjob, harb, hbuild, hzero, hchip, hfill, hpres⟩
    exact ⟨hmem, ⟨htab, hnum, hzero⟩, ⟨href, hback, hcond⟩, ⟨hruns, hptr⟩, hlen, ⟨hlock, hprior, htrial⟩, hlog,
      ⟨hlatch, hfetch⟩, htarget, hpres, ⟨hheld, hunheld, hseal⟩, hloader, ⟨hprog, hmap, hfill⟩, hbuild, ⟨hjob, harb⟩, hchip⟩
  · rintro ⟨hmem, ⟨htab, hnum, hzero⟩, ⟨href, hback, hcond⟩, ⟨hruns, hptr⟩, hlen, ⟨hlock, hprior, htrial⟩, hlog,
      ⟨hlatch, hfetch⟩, htarget, hpres, ⟨hheld, hunheld, hseal⟩, hloader, ⟨hprog, hmap, hfill⟩, hbuild, ⟨hjob, harb⟩, hchip⟩
    exact ⟨hmem, htab, hnum, href, hback, hcond, hruns, hlen, hptr, hlock, hprior, htrial, hlog, hlatch, hfetch, htarget,
      hheld, hunheld, hseal, hloader, hprog, hmap, hjob, harb, hbuild, hzero, hchip, hfill, hpres⟩

/-! ### Resets and chip reset -/

theorem mem_resetTo {s t : State} (r : ResetTo s t) : ∃ m, t.mem = { memReset with ram := m } := by
  rcases r.mem with e | e
  · exact ⟨memReset.ram, e⟩
  · exact ⟨s.mem.ram, e⟩

theorem loaderForm_resetTo {s t : State} (r : ResetTo s t) : LoaderForm t := by
  rcases r.loader with ⟨-, h⟩ | ⟨-, l, h⟩
  · unfold LoaderForm
    rw [h]
    exact ⟨⟨fun _ => nofun, fun _ => rfl⟩, rfl, nofun, rfl, nofun⟩
  · refine loaderForm_running ?_ ?_ ?_ ?_ ?_ ?_ <;> rw [h]
    · nofun
    · rfl
    · nofun
    · rfl
    · nofun

theorem bodyWell_resetTo {s t : State} (r : ResetTo s t) : BodyWell t := by
  have h : t.loader.current = none ∧ t.loader.segmentMap = [] ∧ t.loader.phase ≠ .sealWait := by
    rcases r.loader with ⟨-, h⟩ | ⟨-, l, h⟩ <;> rw [h] <;> exact ⟨rfl, rfl, nofun⟩
  obtain ⟨hc, hm, hp⟩ := h
  exact ⟨progressForm_none hc hp, mapForm_nil hm, fun _ => segment_resetTo r⟩

theorem inPhase_sealWait_resetTo {s t : State} (r : ResetTo s t) : inPhase t .sealWait = false := by
  rcases r.loader with ⟨-, h⟩ | ⟨-, l, h⟩ <;> simp [inPhase, loaderRunning, h, loaderReset]

theorem chipReset_resetTo {s t : State} (r : ResetTo s t) : ChipResetForm t := by
  intro hx
  obtain ⟨m, hm⟩ := mem_resetTo r
  have hl : t.loader = loaderReset := by
    rcases r.loader with ⟨-, h⟩ | ⟨hx', -⟩
    · exact h
    · rw [hx] at hx'; cases hx'
  exact ⟨r.fetch, r.tables, r.gen, r.log, r.irq, r.cmd, hl, r.divider, by rw [hm]⟩

theorem forms_resetTo {s t : State} (hs : MemoryForm s) (r : ResetTo s t) : Forms t := by
  obtain ⟨m, hm⟩ := mem_resetTo r
  have hreq : t.fetch.request = none := by rw [r.fetch]; rfl
  have hmove : movementWaits t = false := by rw [movementWaits, r.gen]; rfl
  exact {
    memory := memoryForm_reset hs r
    tables := by rw [r.tables]; exact tablesWell_reset
    backing := backing_reset (segment_resetTo r) r.tables
    runs := by
      refine ⟨⟨fun h => by rw [segment_resetTo r]; rfl, fun h k _ => by rw [segment_resetTo r]; rfl⟩, fun p hp => ?_⟩
      rw [pointer_resetTo r] at hp
      cases hp
    lengths := lengths_all_free (segment_resetTo r)
    gen := genWell_reset r.gen r.tables
    log := by rw [r.log]; rfl
    words := (wordsWell_none hreq).mpr ⟨by rw [r.fetch]; rfl, by rw [hm]; rfl⟩
    target := fun _ => ⟨hreq, hmove⟩
    presence := by rw [PresenceForm, r.fetch]; nofun
    cmd := cmdWell_reset r.cmd (by rw [hm]; rfl) r.gen (inPhase_sealWait_resetTo r)
    loader := loaderForm_resetTo r
    body := bodyWell_resetTo r
    building := fun _ => ⟨by rw [r.tables]; rfl, by rw [r.tables]; rfl, r.gen⟩
    port := portWell_reset hm
    chipReset := chipReset_resetTo r }

/-- R40: in chip reset every block but the RAM stands at its reset values, so a change of levels is no more than a reset. -/
theorem resetTo_of_levels {s t : State} (h : ChipResetForm s) (l : LevelsOnly s t) : ResetTo s t := by
  obtain ⟨hfetch, htab, hgen, hlog, hirq, hcmd, hload, hdiv, hmem⟩ := h l.inReset
  exact ⟨l.fetch.trans hfetch, .inr (l.mem.trans hmem), l.tables.trans htab, l.gen.trans hgen, l.log.trans hlog,
    l.irq.trans hirq, l.cmd.trans hcmd, l.divider.trans hdiv, .inl ⟨l.xrst, l.loader.trans hload⟩⟩

/-! ### The acts -/

theorem tick_pins (s : State) : s.tick.pins = s.pins := by
  unfold State.tick
  dsimp only
  split <;> simp

theorem failSlot_pins (s : State) (r : SlotResult) (i : Nat) : (s.failSlot r i).pins = s.pins := by
  unfold State.failSlot
  simp

/-- No act changes the level of XRST#. -/
theorem xrst_act {s t : State} (a : Act s t) : t.pins.xrst = s.pins.xrst := by
  cases a with
  | quiet q => rw [q.pins]
  | fold _ hf =>
    cases hf with
    | failed _ _ _ _ => rw [State.failRecord, failSlot_pins]; rfl
    | _ => rfl
  | tick => rw [tick_pins]
  | targetReset => rw [targetReset_eq, State.settle_pins, targetResetGen_trst]; rfl
  | romRead _ _ _ => rw [romReadEnds_pins]
  | romWrite _ _ _ => rw [romWriteEnds_pins]
  | fetchRead _ => rw [fetchReadEnds_pins]
  | fail _ _ _ => rw [failSlot_pins]
  | succeed _ _ => simp [State.succeedSlot]
  | _ => simp

/-- Every form is kept by every act outside chip reset. -/
theorem forms_act {s t : State} (h : Forms s) (hx : s.pins.xrst = false) (a : Act s t) : Forms t where
  memory := memoryForm_act h.memory a
  tables := tablesWell_act h.tables a
  backing := backing_act h.backing a
  runs := runsWell_act h.runs a
  lengths := lengths_act h.lengths h.body.1 a
  gen := genWell_act h.gen a
  log := logForm_act h.log a
  words := wordsWell_act h.words h.building h.cmd a
  target := target_act h.target h.words a
  presence := presence_act h.presence a
  cmd := cmdWell_act h.cmd h.loader a
  loader := loaderForm_act h.loader h.cmd h.body.1 a
  body := bodyWell_act h.body h.loader h.cmd a
  building := building_act h.building h.cmd a
  port := portWell_act h.port h.cmd h.body.1 a
  chipReset := fun hx' => by
    rw [xrst_act a, hx] at hx'
    cases hx'

theorem forms_acts {s t : State} (h : Forms s) (hx : s.pins.xrst = false) (a : Acts s t) : Forms t := by
  suffices Forms t ∧ t.pins.xrst = false from this.1
  induction a with
  | refl => exact ⟨h, hx⟩
  | tail _ hstep ih => exact ⟨forms_act ih.1 ih.2 hstep, (xrst_act hstep).trans ih.2⟩

theorem step_keeps_forms {s t : State} (hs : Forms s) (h : step s = .next t) : Forms t := by
  rcases step_happens h with hr | hl | ⟨hx, ha⟩
  · exact forms_resetTo hs.memory hr
  · exact forms_resetTo hs.memory (resetTo_of_levels hs.chipReset hl)
  · exact forms_acts hs hx ha

/-- Settles O60: each form is kept by every act with the help of the others, and a reset gives them all. -/
theorem everyStepKeepsEveryForm : Obligations.EveryStepKeepsEveryForm := fun _ _ hs h =>
  inv_iff.mpr (step_keeps_forms (inv_iff.mp hs) h)

/-- Settles O5: the state at the end of power-on is what a reset gives. -/
theorem theResetStateIsWellFormed : Obligations.TheResetStateIsWellFormed :=
  inv_iff.mpr (forms_resetTo (s := State.reset) rfl
    ⟨rfl, .inl rfl, rfl, rfl, rfl, rfl, rfl, rfl, .inr ⟨rfl, false, rfl⟩⟩)

end Sys2Proof.Proofs
end

section
/-! PROOF. The step, the empty queue, the resets, target reset and the presentation (R20, R21, R38, R40, R110 to R113). -/

namespace Sys2Proof.Proofs

open Sys2Proof Sys2Proof.Machine

/-- Settles O1. -/
theorem stepRunsTheFrontCommand : Obligations.StepRunsTheFrontCommand := by
  intro c rest s h
  unfold step
  rw [h]

/-! ### The empty queue -/

theorem step_empty {s : State} (h : s.pending = []) : step s = emptyQueue s := by
  unfold step
  rw [h]

/-- What the empty queue does outside chip reset, in its order. -/
theorem emptyQueue_eq {s : State} (hx : s.pins.xrst = false) :
    emptyQueue s = .next (if dataServed s then s.dataEnded
      else if wordReady s then s.served
      else if momentWaits s then (if movementWaits s then s.moveFirst else s.acceptStanding) else s.clockPeriod) :=
  outOfReset_eq hx _

theorem dataServed_eq_false {s : State} (h : s.mem.arbiter.serving ≠ some .dataAccess) : dataServed s = false := by
  simpa [dataServed] using h

theorem momentWaits_false {s : State}
    (h : s.fetch.request.isSome = true ∨ (NoAcceptance s ∧ movementWaits s = false)) : momentWaits s = false := by
  unfold momentWaits
  rcases h with h | ⟨h, hm⟩
  · simp [Option.isNone_eq_false_iff.mpr h]
  · simp [hm, acceptable_none h rfl rfl]

theorem momentWaits_true {s : State} (hr : s.fetch.request = none)
    (h : movementWaits s = true ∨ (acceptable s).isSome = true) : momentWaits s = true := by
  unfold momentWaits
  rcases h with h | h <;> simp [hr, h]

theorem exec_msTick {s : State} (hx : s.pins.xrst = false) : exec .msTick s = .next s.tick := outOfReset_eq hx _

theorem exec_revertTaken {s : State} {o : RevertOrigin} (hx : s.pins.xrst = false) (hg : s.gen.state = .revertWaiting o) :
    exec .revertTaken s = .next s.moveFirst := by
  change execRevertTaken s = _
  unfold execRevertTaken
  rw [outOfReset_eq hx, hg]

/-- Settles O2: the empty queue's order of what waits, each with the event it is. -/
theorem emptyQueueIsOneClockPeriod : Obligations.EmptyQueueIsOneClockPeriod := by
  intro s hq
  rw [step_empty hq]
  refine ⟨fun hx => ?_, fun hx hd => ?_, fun hx hd hn hw => ?_, fun hx hd hn => ?_, fun hx hd hr => ?_⟩
  · unfold emptyQueue outOfReset
    rw [if_pos hx]
  · rw [emptyQueue_eq hx, if_pos (by rw [dataServed, hd]; rfl), dataEnded_begun, windowBegun, Arbiter.idled, if_pos hd]
  · rw [emptyQueue_eq hx, dataServed_eq_false hd, wordReady_iff.mpr hn, momentWaits_false hw]
    simp only [Bool.false_eq_true, if_false]
    refine ⟨fun hlt => ⟨s.divider + 1, ?_, ?_⟩, fun he => ?_⟩
    · rw [Fin.val_add]
      exact Nat.mod_eq_of_lt (by simp; omega)
    · rw [State.clockPeriod, if_neg (by simp only [Config.tickPeriods]; omega)]
    · rw [State.clockPeriod, if_pos (by simp only [Config.tickPeriods]; omega), exec_msTick hx]
  · have hready : wordReady s = true := by
      by_contra hne
      exact hn (wordReady_iff.mp (Bool.eq_false_iff.mpr hne))
    rw [emptyQueue_eq hx, dataServed_eq_false hd, hready, exec_fetchAccept_ready hx hready]
    simp
  · rw [emptyQueue_eq hx, dataServed_eq_false hd, wordReady_none hr]
    simp only [Bool.false_eq_true, if_false]
    refine ⟨fun c hg hm => ?_, fun o hg => ?_, fun hm hs ht => ?_⟩
    · have hw := movementWaits_now hg hm
      rw [momentWaits_true hr (.inl hw), hw, exec_switch_now hx hr hg hm]
      simp only [if_true]
      rw [moveFirst_moves hr hw, takeMovement_now hg hm]
    · have hw := movementWaits_revert hg
      rw [momentWaits_true hr (.inl hw), hw, exec_revertTaken hx hg]
      simp
    · obtain ⟨p, hp⟩ := Option.isSome_iff_exists.mp hs
      have ha := acceptable_some hx ht hr hp
      rw [momentWaits_true hr (.inr (by rw [ha]; rfl)), hm, exec_fetchAccept hx ht hr hp]
      simp [State.acceptStanding, ha]

/-! ### The reset values -/

theorem windowByte_reset : ∀ o : BitVec 5, o ∉ [0x01#5, 0x05#5, 0x06#5] → windowByte State.reset o = 0 := by
  decide

/-- Settles O3, value by value. -/
theorem resetStateHoldsTheResetValues : Obligations.ResetStateHoldsTheResetValues := by
  refine ⟨rfl, rfl, rfl, rfl, rfl, rfl, fun h => segment_memReset (m := []) rfl h, rfl, rfl, rfl, rfl, rfl, rfl, rfl, rfl, rfl,
    fun i => ?_, rfl, rfl, rfl, rfl, rfl, rfl, rfl, rfl, rfl, rfl, rfl, rfl, rfl, rfl, rfl, rfl, rfl, rfl, rfl,
    windowByte_reset, rfl, rfl⟩
  simp [State.reset, cmdReset]

/-- Settles O4. -/
theorem resetsTakeEveryBlockToItsResetValues : Obligations.ResetsTakeEveryBlockToItsResetValues := by
  intro s lden trst freq
  have hassert : exec .xrstAssert s
      = .next (if s.pins.xrst then s else { s.resetBlocks with pins := { s.pins with xrst := true } }) := rfl
  have hrelease : exec (.xrstRelease lden) s = .next (if s.pins.xrst then
      ({ s.resetBlocks with pins := { s.pins with xrst := false } }).startRun lden else s) := rfl
  refine ⟨rfl, fun hx => ?_, fun hx => ?_, fun hx => ?_, fun hx => ?_⟩
  · rw [hassert, hx]; rfl
  · rw [hrelease, hx]; rfl
  · rw [hassert, hx]; rfl
  · rw [hrelease, hx]; rfl

/-! ### Target reset -/

theorem exec_trstRelease {s : State} (hx : s.pins.xrst = false) (ht : s.pins.trst = true) :
    exec .trstRelease s = .next ({ s with pins := { s.pins with trst := false } } : State).acceptOpen := by
  change Host.Outcome.next (if s.pins.xrst then _ else if s.pins.trst then _ else s) = _
  rw [hx, ht]
  rfl

theorem movementWaits_steady {s : State} (h : s.gen.state = .steady) : movementWaits s = false := by
  simp [movementWaits, h]

theorem movementWaits_probation {s : State} (h : s.gen.state = .probation) : movementWaits s = false := by
  simp [movementWaits, h]

theorem movementWaits_atAddress {s : State} {c : PendingCommit} {a : FetchAddr} (h : s.gen.state = .commitPending c)
    (hm : c.mode = .atAddress a) : movementWaits s = false := by
  simp [movementWaits, h, hm]

/-- Once TRST# is asserted, a movement that waits is taken. -/
theorem settle_inTargetReset {s : State} (hr : s.fetch.request = none) (ht : s.pins.trst = true)
    (hm : movementWaits s = true) : s.settle = s.takeMovement := settle_moves hr hm (acceptable_none_of_trst ht)

/-- Settles O6: the assertion is the end of the request and one moment of fetch idle, the release one acceptance. -/
theorem targetResetEndsTheRequestAndTakesWhatWaits : Obligations.TargetResetEndsTheRequestAndTakesWhatWaits := by
  refine ⟨fun s hx => ⟨fun ht hg => ?_, fun ht => ?_, fun ht hr hm => ⟨fun hs => ?_, fun p hs => ⟨fun hn => ?_, ?_⟩⟩,
    fun ht => ?_⟩, fun s hx ht => ⟨fun c hg hmode => ?_, fun o p hg hp => ?_⟩⟩
  · rw [exec_trstAssert hx ht]
    rcases hg with hg | ⟨c, a, hg, hm⟩
    · have hk : (requestEnded s).targetResetGen = requestEnded s := by
        unfold State.targetResetGen
        rw [show (requestEnded s).gen.state = _ from hg]
      rw [hk, settle_quiet (movementWaits_steady (s := requestEnded s) hg)]
    · have hk : (requestEnded s).targetResetGen = requestEnded s := by
        unfold State.targetResetGen
        rw [show (requestEnded s).gen.state = _ from hg]
        dsimp only
        rw [if_neg (by rw [hm]; nofun)]
      rw [hk, settle_quiet (movementWaits_atAddress (s := requestEnded s) hg hm)]
  · change Host.Outcome.next (if s.pins.trst then s else _) = _
    rw [if_pos ht]
  · rw [exec_trstRelease hx ht, acceptOpen_closed (by exact acceptable_none_of_standing hs)]
  · rw [exec_trstRelease hx ht, acceptOpen_accepts (p := p) (by exact hm) (by exact acceptable_some hx rfl hr hs), accept_begun (by exact hn)]
  · rintro c a n hg hmode hmeets rfl
    rw [exec_trstRelease hx ht, acceptOpen_accepts (p := p) (by exact hm) (by exact acceptable_some hx rfl hr hs)]
    exact congrArg Host.Outcome.next (accept_switches (s := { s with pins := { s.pins with trst := false } }) hg hmode hmeets)
  · change Host.Outcome.next (if s.pins.xrst then _ else if s.pins.trst then _ else s) = _
    rw [hx, ht]
    rfl
  · rw [exec_trstAssert hx ht]
    have hge : (requestEnded s).gen.state = .commitPending c := hg
    rcases hmode with hmode | hmode
    · have hk : (requestEnded s).targetResetGen = requestEnded s := by
        unfold State.targetResetGen
        rw [hge]
        dsimp only
        rw [if_neg (by rw [hmode]; nofun)]
      rw [hk, settle_inTargetReset rfl rfl (movementWaits_now hge hmode), takeMovement_now hge hmode]
      rfl
    · have hk : (requestEnded s).targetResetGen = (requestEnded s).takeSwitch c := by
        unfold State.targetResetGen
        rw [hge]
        dsimp only
        rw [if_pos hmode]
      rw [hk, State.takeSwitch_eq, settle_quiet (movementWaits_switchedState _ _ _)]
      rfl
  · rw [exec_trstAssert hx ht]
    have hge : (requestEnded s).gen.state = .revertWaiting o := hg
    have hk : (requestEnded s).targetResetGen = requestEnded s := by
      unfold State.targetResetGen
      rw [hge]
    rw [hk, settle_inTargetReset rfl rfl (movementWaits_revert hge), takeMovement_revert hge hp]

/-- Settles O7: an assertion in PROBATION is a count, and the count that passes the tolerance decides the revert that the
assertion takes. -/
theorem targetResetIsCountedInProbation : Obligations.TargetResetIsCountedInProbation := by
  intro s hx ht hg
  have hge : (requestEnded s).gen.state = .probation := hg
  have hk : (requestEnded s).targetResetGen = (requestEnded s).countReset := by
    unfold State.targetResetGen
    rw [hge]
  have hexcess : exec .resetExcess s = .next (if resetExceeds s then s.targetReset else s) := by
    change outOfReset s _ = _
    rw [outOfReset_eq hx]
    simp [ht, hg]
  have hsame : resetExceeds (requestEnded s) = resetExceeds s := rfl
  refine ⟨fun hle => ?_, fun p c hgt hp hc => ?_⟩
  · have hn : resetExceeds s = false := by simpa [resetExceeds] using hle
    refine ⟨?_, by rw [hexcess, hn]; rfl⟩
    rw [exec_trstAssert hx ht, hk, State.countReset, hsame, hn]
    simp only [Bool.false_eq_true, if_false]
    rw [settle_quiet (movementWaits_probation (by exact hge))]
    rfl
  · have hn : resetExceeds s = true := by simpa [resetExceeds] using hgt
    have hassert : exec .trstAssert s = .next s.targetReset := by rw [exec_trstAssert hx ht, targetReset_eq]
    have hboth : exec c s = .next s.targetReset := by
      rcases hc with rfl | rfl
      · exact hassert
      · rw [hexcess, if_pos hn]
    rw [hboth, targetReset_eq, hk, State.countReset, hsame, if_pos hn,
      settle_inTargetReset (by rfl) (by rfl) (by rfl),
      takeMovement_revert (o := .resets) (p := p) (by rfl) (by exact hp)]
    rfl

/-! ### The presentation -/

/-- A level set to what it is. -/
theorem freq_set {s : State} {b : Bool} (h : s.pins.freq = b) :
    ({ s with pins := { s.pins with freq := b } } : State) = s := by
  subst h
  rfl

theorem exec_freqPresent_released {s : State} (hx : s.pins.xrst = false) (hf : s.pins.freq = false) (fa : FetchAddr)
    (l : FetchLength) (k : FetchKind) (d : FetchDir) (fd : Word) :
    exec (.freqPresent fa l k d fd) s = .next ({ s with
      pins := { s.pins with freq := true }
      fetch := { s.fetch with
        standing := some { address := fa, length := l, kind := k, dir := d, data := fd } } } : State).acceptOpen := by
  change Host.Outcome.next (if s.pins.freq then s else if s.pins.xrst then _ else _) = _
  rw [hf, hx]
  rfl

theorem exec_freqRelease_asserted {s : State} (hx : s.pins.xrst = false) (hf : s.pins.freq = true) :
    exec .freqRelease s = .next ({ s with
      pins := { s.pins with freq := false }
      fetch := { s.fetch with standing := none } } : State).settle := by
  change Host.Outcome.next (if s.pins.freq then (if s.pins.xrst then _ else _) else s) = _
  rw [hf, hx]
  rfl

/-- Settles O8: a closed port or a movement that waits leaves the presentation standing; its withdrawal is a moment of fetch
idle without an acceptance. -/
theorem aPresentationStandsOrIsWithdrawn : Obligations.APresentationStandsOrIsWithdrawn := by
  refine ⟨fun s fa l k d fd => ⟨fun hx hf hc => ?_, ?_, fun hx => ⟨?_, ?_⟩, fun hf => ?_, fun hf => ?_⟩,
    fun fa flen fkind fwr fd => ⟨fetchLengthOf flen, fetchWords_fetchLengthOf flen, ?_⟩⟩
  · rw [exec_freqPresent_released hx hf]
    rcases hc with hc | hc | hc
    · rw [acceptOpen_closed (by simp [acceptable, hc])]
    · rw [acceptOpen_closed (by exact acceptable_none_of_trst hc)]
    · rw [acceptOpen_waits (by exact hc)]
  · rintro hx hf t rfl
    rw [exec_freqRelease_asserted hx hf]
    refine ⟨fun hw => ?_, fun hr c hg hm => ?_, fun hr o q hg hq => ?_⟩
    · rcases hw with hw | hw
      · rw [settle_busy (by exact hw)]
      · rw [settle_quiet (by exact hw)]
    · rw [settle_moves (by exact hr) (by exact movementWaits_now (c := c) hg hm) (by exact acceptable_none_of_standing rfl),
        takeMovement_now (c := c) (by exact hg) hm]
    · rw [settle_moves (by exact hr) (by exact movementWaits_revert (o := o) hg) (by exact acceptable_none_of_standing rfl),
        takeMovement_revert (o := o) (by exact hg) (by exact hq)]
  · change Host.Outcome.next (if s.pins.freq then s else if s.pins.xrst then _ else _) = _
    rw [hx]
    cases hf : s.pins.freq with
    | true => exact congrArg Host.Outcome.next (freq_set hf).symm
    | false => rfl
  · change Host.Outcome.next (if s.pins.freq then (if s.pins.xrst then _ else _) else s) = _
    rw [hx]
    cases hf : s.pins.freq with
    | true => rfl
    | false => exact congrArg Host.Outcome.next (freq_set hf).symm
  · change Host.Outcome.next (if s.pins.freq then s else if s.pins.xrst then _ else _) = _
    rw [if_pos hf]
  · change Host.Outcome.next (if s.pins.freq then (if s.pins.xrst then _ else _) else s) = _
    rw [hf]
    rfl
  · cases fkind <;> cases fwr <;> rfl

end Sys2Proof.Proofs
end

section
/-! PROOF. Acceptances, the words of a request and the ends of accesses (R21 to R37, R91). -/

namespace Sys2Proof.Proofs

open Sys2Proof Sys2Proof.Machine

/-! ### Serving, word by word -/

theorem served_none {s : State} (h : s.fetch.request = none) : s.served = s := by
  unfold State.served serve
  rw [h]

/-- A word that waits: its access is started. -/
theorem served_waits {s : State} {r : Request} (h : s.fetch.request = some r) (hw : (s.resolveWord r).waits = true) :
    s.served = s.startWord := by
  unfold State.served
  rw [serve]
  simp only [h]
  cases hx : s.resolveWord r <;> first | rfl | (rw [hx] at hw; cases hw)

/-- R26: a word from the ROM. -/
theorem served_rom {s : State} {r : Request} (h : s.fetch.request = some r)
    (hx : resolve s.tables.live.entries r.address r.kind = .passthrough
      ∨ ∃ i, resolve s.tables.live.entries r.address r.kind = .countOnly i) :
    s.served = { s with fetch := { s.fetch with romAddress := r.address, romCycle := .read } } := by
  have hw : (s.resolveWord r).waits = true := by
    unfold State.resolveWord
    rcases hx with hx | ⟨i, hx⟩ <;> rw [hx] <;> rfl
  rw [served_waits h hw]
  have hs := startWord_eq h
  rcases hx with hx | ⟨i, hx⟩ <;> rw [hx] at hs <;> exact hs

/-- R28: a word from patch RAM. -/
theorem served_ram {s : State} {r : Request} {k : Handle} {o i : Nat} (h : s.fetch.request = some r)
    (hx : resolve s.tables.live.entries r.address r.kind = .replace k o i) :
    s.served = { s with mem := { s.mem with arbiter := s.mem.arbiter.fetchAsked { handle := k, offset := o } } } := by
  have hw : (s.resolveWord r).waits = true := by
    unfold State.resolveWord
    rw [hx]
    rfl
  rw [served_waits h hw]
  have hs := startWord_eq h
  rw [hx] at hs
  exact hs

/-! ### Alignment (R22) -/

theorem alignAddress_toNat (a : FetchAddr) (l : FetchLength) :
    (alignAddress a l).toNat = a.toNat - a.toNat % fetchWords l := by
  have clear : ∀ k, k ≤ 3 → a &&& ~~~(BitVec.ofNat 19 (2 ^ k - 1)) = (a >>> k) <<< k := by
    intro k hk
    ext i hi
    interval_cases k <;> interval_cases i <;> simp
  have low : ∀ k, k ≤ 3 → ((a >>> k) <<< k).toNat = a.toNat - a.toNat % 2 ^ k := by
    intro k hk
    have := a.isLt
    rw [BitVec.toNat_shiftLeft, BitVec.toNat_ushiftRight, Nat.shiftRight_eq_div_pow, Nat.shiftLeft_eq]
    interval_cases k <;> omega
  cases l with
  | one => exact (congrArg BitVec.toNat (clear 0 (by omega))).trans (low 0 (by omega))
  | two => exact (congrArg BitVec.toNat (clear 1 (by omega))).trans (low 1 (by omega))
  | four => exact (congrArg BitVec.toNat (clear 2 (by omega))).trans (low 2 (by omega))
  | eight => exact (congrArg BitVec.toNat (clear 3 (by omega))).trans (low 3 (by omega))

/-! ### The words of an accepted read -/

/-- R22, R30: the words marked so far are those from the first address on, and the request in progress stands at the next. -/
structure InOrder (p : Presentation) (f : FetchPort) : Prop where
  addresses : f.beats.map (·.address)
    = (List.range f.beats.length).map fun n => alignAddress p.address p.length + BitVec.ofNat 19 n
  whole : f.request = none → f.beats.length = fetchWords p.length
  going : ∀ r, f.request = some r → r.first = alignAddress p.address p.length ∧ r.length = p.length ∧ r.dir = .read
    ∧ r.kind = p.kind ∧ r.left + f.beats.length = fetchWords p.length ∧ 1 ≤ r.left

theorem InOrder.address {p : Presentation} {f : FetchPort} (h : InOrder p f) {r : Request} (hr : f.request = some r) :
    r.address = alignAddress p.address p.length + BitVec.ofNat 19 f.beats.length := by
  obtain ⟨h1, h2, -, -, h5, -⟩ := h.going r hr
  rw [Request.address, h1, h2, show fetchWords p.length - r.left = f.beats.length by omega]

theorem inOrder_deliver {p : Presentation} {s : State} {r : Request} (h : InOrder p s.fetch) (hr : s.fetch.request = some r)
    (w : Word) : InOrder p (s.deliver r w).fetch := by
  obtain ⟨h1, h2, h3, h4, h5, h6⟩ := h.going r hr
  rw [deliver_fetch]
  refine ⟨?_, fun hn => ?_, fun q hq => ?_⟩
  · simp only [List.map_append, List.length_append, List.length_cons, List.length_nil, List.range_succ, List.map_cons,
      List.map_nil, Nat.zero_add, h.addresses, h.address hr]
  · simp only [next_eq h6] at hn
    split at hn
    · simp only [List.length_append, List.length_cons, List.length_nil]; omega
    · cases hn
  · simp only [next_eq h6] at hq
    split at hq
    · cases hq
    · cases hq
      refine ⟨h1, h2, h3, h4, ?_, ?_⟩
      · simp only [List.length_append, List.length_cons, List.length_nil]; omega
      · simp only; omega

theorem startWord_request_beats (s : State) :
    s.startWord.fetch.request = s.fetch.request ∧ s.startWord.fetch.beats = s.fetch.beats := by
  unfold State.startWord
  split
  · exact ⟨rfl, rfl⟩
  · split <;> exact ⟨rfl, rfl⟩

theorem inOrder_congr {p : Presentation} {f g : FetchPort} (h : InOrder p f) (hr : g.request = f.request)
    (hb : g.beats = f.beats) : InOrder p g :=
  ⟨by rw [hb]; exact h.addresses, by rw [hr, hb]; exact h.whole, by rw [hr, hb]; exact h.going⟩

theorem inOrder_startWord {p : Presentation} {s : State} (h : InOrder p s.fetch) : InOrder p s.startWord.fetch :=
  inOrder_congr h (startWord_request_beats s).1 (startWord_request_beats s).2

theorem inOrder_serve {p : Presentation} (n : Nat) {s : State} (h : InOrder p s.fetch) : InOrder p (serve n s).fetch := by
  induction n generalizing s with
  | zero => exact h
  | succ n ih =>
    unfold serve
    split
    · exact h
    · rename_i r hr
      split
      case h_4 => exact ih (inOrder_deliver h hr _)
      case h_5 => exact ih (inOrder_deliver h hr _)
      all_goals exact inOrder_startWord h

theorem inOrder_accept (s : State) {p : Presentation} (hd : p.dir = .read) : InOrder p (s.accept p).fetch := by
  have h0 : ∀ g, InOrder p { s.fetch with standing := none, request := some (p.request g), beats := [] } := fun g =>
    ⟨rfl, nofun, fun r hr => by
      cases hr
      exact ⟨rfl, rfl, hd, rfl, rfl, by cases h : p.length <;> simp [Presentation.request, fetchWords, h]⟩⟩
  unfold State.accept
  dsimp only
  split
  · split
    · exact inOrder_startWord (h0 _)
    · exact inOrder_serve 8 (h0 _)
  · rename_i hw
    rw [hd] at hw
    cases hw

/-- Settles O9: the alignment, and the order in which serving marks words. -/
theorem anAcceptedReadIsAligned : Obligations.AnAcceptedReadIsAligned := by
  rintro s t p first hd rfl rfl
  have h := inOrder_accept s hd
  refine ⟨alignAddress_toNat _ _, fun hx ht hr hs => exec_fetchAccept hx ht hr hs, ?_, h.addresses, h.whole, fun r hr => ?_⟩
  · rintro u hu rfl
    exact exec_freqPresent_open p hu
  · obtain ⟨h1, h2, h3, h4, h5, -⟩ := h.going r hr
    exact ⟨h1, h2, h3, h4, h5, h.address hr⟩

/-! ### Acceptances -/

/-- A presentation to an open port that meets no switch address. -/
theorem exec_freqPresent_begun {s : State} {p : Presentation} (ho : PortOpen s) (hn : NoSwitchAt s p) :
    exec (.freqPresent p.address p.length p.kind p.dir p.data) s
      = .next (({ s with pins := { s.pins with freq := true } } : State).begun p) := by
  rw [exec_freqPresent_open p ho, accept_begun (by exact hn)]
  unfold State.begun
  cases p.dir <;> rfl

theorem begun_read {s : State} {p : Presentation} (hd : p.dir = .read) : s.begun p = (accepted s p).served := by
  unfold State.begun
  rw [hd]

theorem begun_write {s : State} {p : Presentation} (hd : p.dir = .write) :
    s.begun p = { s with fetch :=
      { standing := none, request := some (acceptedRequest s p),
        romAddress := alignAddress p.address p.length, romCycle := .write p.data, beats := [] } } := by
  unfold State.begun
  rw [hd]

/-- Settles O11: an acceptance at an open port, and one that takes the switch it meets. -/
theorem anAcceptanceStartsTheFirstWord : Obligations.AnAcceptanceStartsTheFirstWord := by
  refine ⟨fun s p ho hn => ?_, ?_⟩
  · have hexec := exec_freqPresent_begun ho hn
    have haddr := address_acceptedRequest s p
    refine ⟨fun hd => ?_, fun hd hx => ?_, fun hd k o i hx => ?_, fun hd => ?_⟩
    · rw [hexec, begun_read hd]
    · rw [hexec, begun_read hd, served_rom (r := acceptedRequest s p) rfl (by rw [haddr]; exact hx), haddr]
      rfl
    · rw [hexec, begun_read hd, served_ram (k := k) (o := o) (i := i) (r := acceptedRequest s p) rfl (by rw [haddr]; exact hx)]
      rfl
    · rw [hexec, begun_write hd]
      rfl
  · rintro s t begun fa l fd c n first rfl hg hm rfl hb ht
    have hmeets : (⟨fa, l, .code, .read, fd⟩ : Presentation).meets (alignAddress fa l) = true := by
      simp [Presentation.meets]
    have hacc := accept_switches hg hm hmeets
    have hstart : accepted (switchedState s c (switchNumber s.gen.counter s.tables.live.generation))
        ⟨fa, l, .code, .read, fd⟩ = begun := by rw [hb]; rfl
    have hreq : begun.fetch.request = some (Presentation.request ⟨fa, l, .code, .read, fd⟩
        (switchNumber s.gen.counter s.tables.live.generation)) := by rw [hb]; rfl
    have haddr : (Presentation.request ⟨fa, l, .code, .read, fd⟩
        (switchNumber s.gen.counter s.tables.live.generation)).address = alignAddress fa l := by
      simp [Presentation.request, Request.address]
    have hres : resolve begun.tables.live.entries (alignAddress fa l) .code
        = resolve s.tables.staged (alignAddress fa l) .code := by
      have he : begun.tables.live.entries = s.tables.staged.map Entry.unhit := by rw [hb]; rfl
      rw [he, resolve_unhit]
    have harb : begun.mem.arbiter = s.mem.arbiter := by rw [hb]; simp only [switchedState, memoryLowered]
    have hs := startWord_eq hreq
    rw [haddr, show (Presentation.request _ _).kind = .code from rfl, hres, harb] at hs
    have hgo : s.accept ⟨fa, l, .code, .read, fd⟩ = t := by
      rw [hacc, State.switchBegun, hstart, ht]
      cases hx : resolve s.tables.staged (alignAddress fa l) .code <;> rw [hx] at hs <;> exact hs
    refine ⟨fun hx ht hr hs => ⟨?_, ?_⟩, ?_⟩
    · rw [exec_fetchAccept hx ht hr hs, hgo]
    · rw [exec_switch_due hx ht hr hs hg hm hmeets, hgo]
    · rintro u hu rfl
      rw [← hgo]
      exact exec_freqPresent_open ⟨fa, l, .code, .read, fd⟩ hu

/-! ### Filled and trapped words -/

/-- The words from an address on, each marked with the same data. -/
def wordsFrom (a : FetchAddr) (n : Nat) (v : Word) : List Beat :=
  (List.range n).map fun m => { address := a + BitVec.ofNat 19 m, data := some v }

theorem add_ofNat_succ {w : Nat} (a : BitVec w) (m : Nat) : a + BitVec.ofNat w (m + 1) = a + 1#w + BitVec.ofNat w m := by
  rw [BitVec.add_assoc, Nat.add_comm m 1, BitVec.ofNat_add]

theorem wordsFrom_succ (a : FetchAddr) (n : Nat) (v : Word) :
    wordsFrom a (n + 1) v = { address := a, data := some v } :: wordsFrom (a + 1) n v := by
  unfold wordsFrom
  rw [List.range_succ_eq_map, List.map_cons, List.map_map]
  refine congrArg₂ List.cons (by simp) (List.map_congr_left fun m _ => ?_)
  exact congrArg (fun x => ({ address := x, data := some v } : Beat)) (add_ofNat_succ a m)

/-- The fetch port once the words left of a request are marked with the same data. -/
theorem wordMarked_wordsFrom {f : FetchPort} {r : Request} {v : Word} (h : 2 ≤ r.left) (hl : r.left ≤ fetchWords r.length) :
    (wordMarked f r (some v)).request = some { r with left := r.left - 1 }
      ∧ ({ r with left := r.left - 1 } : Request).address = r.address + 1
      ∧ (wordMarked f r (some v)).beats ++ wordsFrom (r.address + 1) (r.left - 1) v
          = f.beats ++ wordsFrom r.address r.left v := by
  refine ⟨?_, address_next h hl, ?_⟩
  · unfold wordMarked
    rw [if_neg (by omega)]
  · obtain ⟨n, hn⟩ : ∃ n, r.left = n + 1 := ⟨r.left - 1, by omega⟩
    rw [hn, wordsFrom_succ]
    simp [wordMarked]

/-- R29, R30: a request whose words left all resolve to one FILL entry is delivered whole. -/
theorem served_fill {n : Nat} {s : State} {r : Request} {v : Word} {i : Nat} (hr : s.fetch.request = some r)
    (hn : r.left = n + 1) (hl : r.left ≤ fetchWords r.length) (hc : CountsInRange s.tables)
    (hx : ∀ m < r.left, resolve s.tables.live.entries (r.address + BitVec.ofNat 19 m) r.kind = .fill v i) :
    s.served = { s with
      fetch := { s.fetch with request := none, beats := s.fetch.beats ++ wordsFrom r.address r.left v }
      tables := hitsAt s.tables i r.left } := by
  induction n generalizing s r with
  | zero =>
    have h0 := hx 0 (by omega)
    rw [BitVec.add_zero] at h0
    have hs := served_eq hr (by omega) hl hc
    rw [h0] at hs
    have hs : s.served = State.served { s with fetch := wordMarked s.fetch r (some v), tables := hitsAt s.tables i 1 } := hs
    rw [hs, served_none (by simp [wordMarked, hn]), hn]
    simp [wordMarked, hn, wordsFrom]
  | succ n ih =>
    have h0 := hx 0 (by omega)
    rw [BitVec.add_zero] at h0
    have hs := served_eq hr (by omega) hl hc
    rw [h0] at hs
    have hs : s.served = State.served { s with fetch := wordMarked s.fetch r (some v), tables := hitsAt s.tables i 1 } := hs
    obtain ⟨hreq, haddr, hbeats⟩ := wordMarked_wordsFrom (f := s.fetch) (v := v) (show 2 ≤ r.left by omega) hl
    rw [hs, ih (r := { r with left := r.left - 1 }) hreq (by simp only; omega) (by simp only; omega)
      (countsInRange_hitsAt hc i 1) fun m hm => ?_]
    · simp only [haddr, hbeats, hitsAt_hitsAt, show 1 + (r.left - 1) = r.left by omega]
      simp [wordMarked]
    · simp only at hm
      rw [haddr, resolve_hitsAt]
      have := hx (m + 1) (by omega)
      rwa [add_ofNat_succ] at this

/-- R124 to R128: the records of trapped words, from a number and an address on. -/
def trapRecords (q : BitVec 16) (r : Request) (a : FetchAddr) (i n : Nat) : List LogRecord :=
  (List.range n).map fun m =>
    { sequence := q + BitVec.ofNat 16 m, address := a + BitVec.ofNat 19 m, entryIndex := i, generation := r.latch,
      body := .trap r.kind }

theorem trapRecords_succ (q : BitVec 16) (r : Request) (a : FetchAddr) (i n : Nat) :
    trapRecords q r a i (n + 1)
      = { sequence := q, address := a, entryIndex := i, generation := r.latch, body := .trap r.kind }
        :: trapRecords (q + 1) r (a + 1) i n := by
  unfold trapRecords
  rw [List.range_succ_eq_map, List.map_cons, List.map_map]
  refine congrArg₂ List.cons (by simp) (List.map_congr_left fun m _ => ?_)
  simp only [Function.comp_apply, Nat.succ_eq_add_one]
  rw [add_ofNat_succ q, add_ofNat_succ a]
  rfl

/-- R124 to R128: the state with the records of `n` trapped words appended to the log. -/
def trapsLogged (s : State) (r : Request) (i n : Nat) : State :=
  { s with
    log := { records := s.log.records ++ trapRecords s.log.nextSequence r r.address i n
             nextSequence := s.log.nextSequence + BitVec.ofNat 16 n }
    irq := { s.irq with pending := s.irq.pending ||| 0b0000001 } }

theorem or_or_self (a b : BitVec 7) : a ||| b ||| b = a ||| b := by
  rw [BitVec.or_assoc, BitVec.or_self]

theorem trapsLogged_one (s : State) (r : Request) (i : Nat) (hl : s.log.records.length < 16) :
    s.handOver { address := r.address, entryIndex := i, generation := r.latch, body := .trap r.kind }
      = trapsLogged s r i 1 := by
  rw [handOver_append hl]
  simp [trapsLogged, trapRecords, Handover.numbered]

/-- One trapped word, and then those after it. -/
theorem trapsLogged_next (s t : State) {r : Request} {i : Nat} (h : 2 ≤ r.left) (hl : r.left ≤ fetchWords r.length)
    (hlog : t.log = (trapsLogged s r i 1).log) (hirq : t.irq = (trapsLogged s r i 1).irq) :
    (trapsLogged t { r with left := r.left - 1 } i (r.left - 1)).log = (trapsLogged s r i r.left).log
      ∧ (trapsLogged t { r with left := r.left - 1 } i (r.left - 1)).irq = (trapsLogged s r i r.left).irq := by
  obtain ⟨m, hm⟩ : ∃ m, r.left = m + 1 := ⟨r.left - 1, by omega⟩
  have haddr := address_next h hl
  constructor
  · have hfirst : trapRecords s.log.nextSequence r r.address i 1 =
        [{ sequence := s.log.nextSequence, address := r.address, entryIndex := i, generation := r.latch,
           body := .trap r.kind }] := trapRecords_succ _ _ _ _ 0
    unfold trapsLogged at hlog ⊢
    dsimp only at hlog ⊢
    rw [hlog]
    dsimp only
    rw [haddr, hm, Nat.add_sub_cancel, hfirst, trapRecords_succ _ r _ i m, add_ofNat_succ s.log.nextSequence m,
      List.append_assoc]
    rfl
  · simp only [trapsLogged, hirq, or_or_self]

/-- R29, R30, R124: a request whose words left all resolve to one TRAP entry is delivered whole, with its records. -/
theorem served_trap {n : Nat} {s : State} {r : Request} {v : Word} {i : Nat} (hr : s.fetch.request = some r)
    (hn : r.left = n + 1) (hl : r.left ≤ fetchWords r.length) (hc : CountsInRange s.tables)
    (hroom : s.log.records.length + r.left ≤ 16)
    (hx : ∀ m < r.left, resolve s.tables.live.entries (r.address + BitVec.ofNat 19 m) r.kind = .trap v i) :
    s.served = { trapsLogged s r i r.left with
      fetch := { s.fetch with request := none, beats := s.fetch.beats ++ wordsFrom r.address r.left v }
      tables := hitsAt s.tables i r.left } := by
  induction n generalizing s r with
  | zero =>
    have h0 := hx 0 (by omega)
    rw [BitVec.add_zero] at h0
    have hs := served_eq hr (by omega) hl hc
    rw [h0] at hs
    dsimp only at hs
    rw [trapsLogged_one s r i (by omega)] at hs
    rw [hs, served_none (by simp [wordMarked, hn]), hn]
    simp [wordMarked, hn, wordsFrom]
  | succ n ih =>
    have h0 := hx 0 (by omega)
    rw [BitVec.add_zero] at h0
    have hs := served_eq hr (by omega) hl hc
    rw [h0] at hs
    dsimp only at hs
    rw [trapsLogged_one s r i (by omega)] at hs
    obtain ⟨hreq, haddr, hbeats⟩ := wordMarked_wordsFrom (f := s.fetch) (v := v) (show 2 ≤ r.left by omega) hl
    generalize hu : ({ trapsLogged s r i 1 with
      fetch := wordMarked s.fetch r (some v), tables := hitsAt s.tables i 1 } : State) = u at hs
    obtain ⟨hlog, hirq⟩ := trapsLogged_next s u (i := i) (show 2 ≤ r.left by omega) hl (by rw [← hu]) (by rw [← hu])
    have hready : u.served = { trapsLogged u { r with left := r.left - 1 } i (r.left - 1) with
        fetch := { u.fetch with
          request := none, beats := u.fetch.beats ++ wordsFrom (r.address + 1) (r.left - 1) v }
        tables := hitsAt u.tables i (r.left - 1) } := by
      rw [← haddr]
      refine ih (r := { r with left := r.left - 1 }) (by rw [← hu]; exact hreq) (by simp only; omega)
        (by simp only; omega) (by rw [← hu]; exact countsInRange_hitsAt hc i 1) ?_ fun m hm => ?_
      · rw [← hu]
        simp only [trapsLogged, trapRecords, List.length_append, List.length_map, List.length_range]
        omega
      · simp only at hm
        rw [haddr, ← hu]
        have := hx (m + 1) (by omega)
        rw [add_ofNat_succ] at this
        exact (resolve_hitsAt _ _ _ _ _).trans this
    rw [hs, hready]
    have hf : u.fetch = wordMarked s.fetch r (some v) := by rw [← hu]
    have ht : hitsAt u.tables i (r.left - 1) = hitsAt s.tables i r.left := by
      rw [← hu, hitsAt_hitsAt, show 1 + (r.left - 1) = r.left by omega]
    apply State.ext_blocks
    case h2 => simp only [hf, hbeats]; rfl
    case h4 => exact ht
    case h6 => exact hlog
    case h7 => exact hirq
    all_goals (simp only [trapsLogged]; rw [← hu]; rfl)

end Sys2Proof.Proofs
end

section
/-! PROOF. The statements about filled and trapped words, the ends of accesses and the moments of fetch idle (R24 to R37,
R65, R90, R102). -/

namespace Sys2Proof.Proofs

open Sys2Proof Sys2Proof.Machine

/-- Settles O12: whole FILL and TRAP reads by induction on the words left, and serving in general one word at a time. -/
theorem filledAndTrappedWordsAreDeliveredAtOnce : Obligations.FilledAndTrappedWordsAreDeliveredAtOnce := by
  refine ⟨?_, fun s => ⟨served_none, ?_⟩⟩
  · rintro s p v i t ho hn hd hc rfl
    have haddr := address_acceptedRequest s p
    obtain ⟨n, hlen⟩ : ∃ n, fetchWords p.length = n + 1 := ⟨fetchWords p.length - 1, by cases p.length <;> rfl⟩
    have hexec := exec_freqPresent_begun ho hn
    rw [begun_read hd] at hexec
    generalize hu : accepted ({ s with pins := { s.pins with freq := true } } : State) p = u at hexec
    have hreq : u.fetch.request = some (acceptedRequest s p) := by rw [← hu]; rfl
    have hent : u.tables = s.tables := by rw [← hu]; rfl
    refine ⟨fun hx => ?_, fun hx hroom => ?_⟩
    · rw [hexec, served_fill (n := n) (v := v) (i := i) hreq hlen le_rfl (by rw [hent]; exact hc)
        (by rw [hent, haddr]; exact hx), ← hu, haddr]
      rfl
    · rw [hexec, served_trap (n := n) (v := v) (i := i) hreq hlen le_rfl (by rw [hent]; exact hc)
        (by rw [← hu]; exact hroom) (by rw [hent, haddr]; exact hx), ← hu]
      simp only [trapsLogged, trapRecords, haddr]
      rfl
  · rintro r x hr h1 hl hc rfl
    exact served_eq hr h1 hl hc

/-! ### The request after its word -/

theorem wordMarked_last {f : FetchPort} {r : Request} (d : Option Word) (h : r.left = 1) :
    wordMarked f r d =
      { f with beats := f.beats ++ [{ address := r.address, data := d }], request := none } := by
  simp [wordMarked, h]

theorem wordMarked_next {f : FetchPort} {r : Request} (d : Option Word) (h : 2 ≤ r.left) :
    wordMarked f r d =
      { f with beats := f.beats ++ [{ address := r.address, data := d }], request := some { r with left := r.left - 1 } } := by
  unfold wordMarked
  rw [if_neg (by omega)]

/-! ### The end of a ROM read cycle -/

/-- R26: RRDY has no effect without a cycle of its kind. -/
theorem exec_romReadDone_idle {s : State} (hx : s.pins.xrst = false) (hc : s.fetch.romCycle ≠ .read) (rd : Word) :
    exec (.romReadDone rd) s = .next s := by
  cases h : s.fetch.romCycle with
  | read => exact absurd h hc
  | none => simp [exec, execRomReadDone, outOfReset, hx, h]
  | write w => simp [exec, execRomReadDone, outOfReset, hx, h]

/-- Settles O13: the word is marked and counted, and serving goes on with the next. -/
theorem aRomReadDeliversItsWord : Obligations.ARomReadDeliversItsWord := by
  refine fun s rd hx => ⟨fun r delivered hcy hr hc hl hd => ?_, fun hcy => exec_romReadDone_idle hx hcy rd⟩
  have hexec : 1 ≤ r.left → exec (.romReadDone rd) s = .next (State.served { s with
      fetch := { wordMarked s.fetch r (some rd) with romCycle := .none }, tables := delivered }) := by
    intro h1
    rcases hd with ⟨hp, rfl⟩ | ⟨i, hp, rfl⟩
    · exact exec_endsWith hx hc ⟨r, hr, h1, .inl ⟨rd, rfl, hcy, .inl ⟨hp, rfl⟩⟩⟩
    · exact exec_endsWith hx hc ⟨r, hr, h1, .inl ⟨rd, rfl, hcy, .inr ⟨i, hp, rfl⟩⟩⟩
  have hres : ∀ a, resolve delivered.live.entries a r.kind = resolve s.tables.live.entries a r.kind := by
    intro a
    rcases hd with ⟨-, rfl⟩ | ⟨i, -, rfl⟩
    · rfl
    · exact resolve_hitsAt _ _ _ _ _
  refine ⟨fun h1 => ?_, fun h2 hn => ?_, fun h2 k o i hn => ?_, fun h1 t ht => by rw [ht]; exact hexec h1⟩
  · rw [hexec (by omega), served_none (by simp [wordMarked_last _ h1]), wordMarked_last _ h1]
  · have ha := address_next h2 hl
    rw [hexec (by omega), wordMarked_next _ h2, served_rom (r := { r with left := r.left - 1 }) (by rfl)
      (by simp only [ha, hres]; exact hn), ha]
  · have ha := address_next h2 hl
    rw [hexec (by omega), wordMarked_next _ h2, served_ram (k := k) (o := o) (i := i)
      (r := { r with left := r.left - 1 }) (by rfl) (by simp only [ha, hres]; exact hn)]

/-! ### The end of a fetch read -/

/-- R65: the end of an access whose data was discarded only frees the port. -/
theorem exec_fetchRamReadDone_discarded {s : State} (hx : s.pins.xrst = false)
    (hs : s.mem.arbiter.idled.serving = some .discarded) : exec .fetchRamReadDone s = .next s.freePort := by
  simp [exec, execFetchRamReadDone, outOfReset, hx, arbiter_dataEnded_eq, hs]

/-- R28: without a fetch read in the port the event has no effect. -/
theorem exec_fetchRamReadDone_other {s : State} (hx : s.pins.xrst = false)
    (hs : s.mem.arbiter.idled.serving = none ∨ s.mem.arbiter.idled.serving = some .dataAccess
      ∨ s.mem.arbiter.idled.serving = some .crcRead) : exec .fetchRamReadDone s = .next s := by
  rcases hs with hs | hs | hs <;> simp [exec, execFetchRamReadDone, outOfReset, hx, arbiter_dataEnded_eq, hs]

/-- R65: the port after a fetch read, granted to a data-port access first and then to a CRC read, with the next fetch read
claimed behind it. -/
theorem passed_fetchAsked {a : Arbiter} (h : a.fetchWaits = none) (c : FetchClaim) :
    a.passed.fetchAsked c =
      if a.dataWaits = true then
        { serving := some .dataAccess, fetchWaits := some c, dataWaits := false, crcWaits := a.crcWaits }
      else if a.crcWaits = true then
        { serving := some .crcRead, fetchWaits := some c, dataWaits := false, crcWaits := false }
      else { serving := some (.fetchRead c), fetchWaits := none, dataWaits := false, crcWaits := false } := by
  obtain ⟨x, f, d, w⟩ := a
  have h : f = none := h
  subst h
  cases d <;> cases w <;> rfl

/-- Settles O14: the port is freed, the segment's word is marked and counted, and serving goes on with the next. -/
theorem aFetchReadDeliversTheSegmentsWord : Obligations.AFetchReadDeliversTheSegmentsWord := by
  rintro s a hx rfl
  refine ⟨fun c r g i w hs hr hg hc hres hw hl => ?_, fun hs => ?_, fun hs => ?_⟩
  · have hexec : 1 ≤ r.left → exec .fetchRamReadDone s = .next (State.served { s with
        fetch := wordMarked s.fetch r (some w)
        tables := hitsAt s.tables i 1
        mem := { s.mem with arbiter := s.mem.arbiter.idled.passed } }) := by
      intro h1
      rw [hw]
      exact exec_endsWith hx hc ⟨r, hr, h1, .inr (.inr ⟨c, g, i, rfl, hs, hg, hres, rfl⟩)⟩
    refine ⟨fun h1 => ?_, fun h2 hn => ?_, fun h2 k o j hn hf => ?_, fun h1 t ht => by rw [ht]; exact hexec h1⟩
    · rw [hexec (by omega), served_none (by simp [wordMarked_last _ h1]), wordMarked_last _ h1]
    · have ha := address_next h2 hl
      rw [hexec (by omega), wordMarked_next _ h2, served_rom (r := { r with left := r.left - 1 }) (by rfl)
        (by simp only [ha, resolve_hitsAt]; exact hn), ha]
    · have ha := address_next h2 hl
      rw [hexec (by omega), wordMarked_next _ h2, served_ram (k := k) (o := o) (i := j)
        (r := { r with left := r.left - 1 }) (by rfl) (by simp only [ha, resolve_hitsAt]; exact hn),
        ← passed_fetchAsked hf]
  · have hi : s.mem.arbiter.idled = s.mem.arbiter := idled_eq_self (by rw [hs]; nofun)
    rw [exec_fetchRamReadDone_discarded hx (by rw [hi, hs])]
    exact congrArg Host.Outcome.next (freePort_eq s)
  · exact exec_fetchRamReadDone_other hx hs

/-! ### The end of a ROM write cycle -/

/-- R36, R37: a written word is marked once its record is handed over. -/
theorem logShadow_beat {s : State} {r : Request} (h : 1 ≤ r.left) (w : Word) :
    (s.endRom.logShadow r w).beat r none
      = { s.logShadow r w with fetch := { wordMarked s.fetch r none with romCycle := .none } } := by
  have hb : ∀ u : State, u.fetch = s.endRom.fetch →
      u.beat r none = { u with fetch := { wordMarked s.fetch r none with romCycle := .none } } := by
    intro u hu
    simp only [State.beat, State.setFetch, next_eq h, hu, State.endRom]
    rfl
  have hf : (s.endRom.logShadow r w).fetch = s.endRom.fetch := by simp
  rw [hb _ hf]
  unfold State.logShadow
  rw [show s.endRom.tables = s.tables from rfl]
  cases shadowIndex s.tables.live.entries r.address with
  | none => rfl
  | some i =>
    unfold State.handOver
    rw [show s.endRom.log = s.log from rfl]
    dsimp only
    split <;> rfl

theorem exec_romWriteDone {s : State} {r : Request} {w : Word} (hx : s.pins.xrst = false)
    (hc : s.fetch.romCycle = .write w) (hr : s.fetch.request = some r) (fd : Word) :
    exec (.romWriteDone fd) s = .next (s.romWriteEnds r w fd) := by
  simp [exec, execRomWriteDone, outOfReset, hx, hc, hr]

theorem exec_romWriteDone_idle {s : State} (hx : s.pins.xrst = false)
    (hc : s.fetch.romCycle = .none ∨ s.fetch.romCycle = .read) (fd : Word) : exec (.romWriteDone fd) s = .next s := by
  rcases hc with hc | hc <;> simp [exec, execRomWriteDone, outOfReset, hx, hc]

/-- Settles O15: the record, the mark, and the next word's cycle. -/
theorem aRomWriteEndsItsWord : Obligations.ARomWriteEndsItsWord := by
  refine fun s fd hx => ⟨fun r w logged hc hr hl hlog => ?_, fun hc => exec_romWriteDone_idle hx hc fd⟩
  have hlogged : s.logShadow r w = logged := by
    unfold State.logShadow
    rcases hlog with ⟨h, rfl⟩ | ⟨i, h, hroom, rfl⟩ | ⟨i, oldest, rest, h, hfull, hrec, rfl⟩ <;> rw [h] <;> dsimp only
    · rw [handOver_append hroom]
      rfl
    · rw [handOver_drop hfull.ge, drop_of_records_cons hrec]
  have hends : 1 ≤ r.left → s.romWriteEnds r w fd
      = State.nextWrite { logged with fetch := { wordMarked s.fetch r none with romCycle := .none } } fd := by
    intro h1
    rw [State.romWriteEnds, logShadow_beat h1, hlogged]
  rw [exec_romWriteDone hx hc hr]
  refine ⟨fun h1 => ?_, fun h2 => ?_⟩
  · rw [hends (by omega), wordMarked_last _ h1]
    rfl
  · have ha := address_next h2 hl
    rw [hends (by omega), wordMarked_next _ h2]
    simp only [State.nextWrite, State.startRom, State.setFetch, ha]

/-! ### Moments of fetch idle -/

/-- Settles O16: what waits at fetch idle is taken by its own event. -/
theorem aMomentOfFetchIdleTakesWhatWaits : Obligations.AMomentOfFetchIdleTakesWhatWaits := by
  refine ⟨fun s t c hx hc h => exec_endsWith hx hc h, fun s p hx ht hr hs => ⟨fun hn => ?_, ?_, ?_⟩, fun s hx hn => ?_⟩
  · rw [exec_fetchAccept hx ht hr hs, accept_begun hn]
  · rintro c n hg rfl
    refine ⟨fun a hm hp => ⟨?_, ?_⟩, fun hm => ⟨exec_switch_now hx hr hg hm, ?_⟩⟩
    · rw [exec_fetchAccept hx ht hr hs, accept_switches hg hm hp]
    · rw [exec_fetchAccept hx ht hr hs, exec_switch_due hx ht hr hs hg hm hp]
    · rw [exec_fetchAccept (p := p) (by simpa using hx) (by simpa using ht) (by simpa using hr) (by simpa using hs),
        accept_begun (noSwitchAt_unpending (switchedState_notPending s c _))]
  · intro o q hg hq
    refine ⟨?_, ?_⟩
    · rw [exec_revertTaken hx hg, moveFirst_moves hr (movementWaits_revert hg), takeMovement_revert hg hq]
    · have hn : ∀ c, (revertedState s q o).gen.state ≠ .commitPending c := by
        rw [revertedState_steady]
        nofun
      rw [exec_fetchAccept (p := p) (by simpa using hx) (by simpa using ht) (by simpa using hr) (by simpa using hs),
        accept_begun (noSwitchAt_unpending hn)]
  · refine exec_fetchAccept_ready hx ?_
    by_contra hne
    exact hn (wordReady_iff.mp (Bool.eq_false_iff.mpr hne))

end Sys2Proof.Proofs
end

section
/-! PROOF. The statements about the segment commands (R43 to R50, R54, R182): what each owner of a command answers, said once,
and the scan that finds the longest free run. -/

namespace Sys2Proof.Proofs

open Sys2Proof Sys2Proof.Machine

/-- R143: a command written while its unit is ready, with what its owner leaves. -/
theorem commanded {s : State} (h : Ready s) {code : Byte} {w : Bool} {owner : State → State} {t : State}
    (ho : owner ((windowBegun s).setCommand code) = t) : commandEvent code w owner s = .next t := by
  rw [commandEvent_ready h, ho]

/-! ### SEG_ALLOC -/

theorem allocAnswer_badParam {s : State} {k : Nat} (h : k = 0 ∨ 512 < k) : allocAnswer s k = .refused .badParam := if_pos h

theorem allocAnswer_noHandle {s : State} {k : Nat} (h1 : 1 ≤ k) (h2 : k ≤ 512) (hn : ∀ h, s.segment h ≠ .free) :
    allocAnswer s k = .refused .noHandle := by
  rw [allocAnswer, if_neg (by simp only [Config.granules]; omega), lowestFreeHandle_none hn]

theorem allocAnswer_noSpace {s : State} {k : Nat} {h : Handle} (h1 : 1 ≤ k) (h2 : k ≤ 512) (hf : s.segment h = .free)
    (hl : ∀ j < h, s.segment j ≠ .free) (hg : ∀ g, ¬ RunIsFree s g k) : allocAnswer s k = .refused .noSpace := by
  rw [allocAnswer, if_neg (by simp only [Config.granules]; omega), lowestFreeHandle_some hf hl]
  dsimp only
  rw [firstFit_none h2 hg]

theorem segAllocOwner_refused {s : State} {c : ResultCode} (h : allocAnswer s (param2 s 0 1) = .refused c) :
    segAllocOwner s = s.answer c [] := by rw [segAllocOwner, h]

theorem segAllocOwner_taken {s : State} {h : Handle} {r : Run} (ha : allocAnswer s (param2 s 0 1) = .taken h r) :
    segAllocOwner s = (s.setSegment h (.opened r)).answer .ok (allocBytes h r) := by rw [segAllocOwner, ha]

theorem allocBytes_eq (h : Handle) (g k : Nat) :
    allocBytes h { first := g, count := k } = byte (h.val + 1) :: bytes2 g ++ bytes2 k ++ bytes2 (32 * k) := by
  rw [Nat.mul_comm]
  rfl

/-- Settles O17: the answer of an allocation, check by check. -/
theorem allocationIsFirstFitForTheLowestHandle : Obligations.AllocationIsFirstFitForTheLowestHandle := by
  refine fun s hs => ⟨fun hk => commanded hs (segAllocOwner_refused (allocAnswer_badParam hk)), fun h1 h2 =>
    ⟨fun hn => commanded hs (segAllocOwner_refused (allocAnswer_noHandle h1 h2 hn)), fun h hf hl =>
      ⟨fun hg => commanded hs (segAllocOwner_refused (allocAnswer_noSpace h1 h2 hf hl hg)), fun g hg hlow => ?_⟩⟩⟩
  rw [← allocBytes_eq]
  exact commanded hs (segAllocOwner_taken (allocAnswer_taken h1 h2 hf hl hg hlow))

/-! ### The handle check and SEG_SELECT -/

/-- R45: the command checks its handle before anything else. -/
def ChecksHandle (c : Instr) (code : Byte) : Prop :=
  ∃ go : State → Handle → State, ∀ s, exec c s = commandEvent code false (fun s => withHandle (param1 s 0) s (go s)) s

theorem checksHandle_of_mem {c : Instr} {code : Byte}
    (h : (c, code) ∈ [(Instr.segSelect, (0x11 : Byte)), (.segSeal, 0x12), (.segUnseal, 0x13), (.segFree, 0x14)]) :
    ChecksHandle c code := by
  simp only [List.mem_cons, Prod.mk.injEq, List.not_mem_nil, or_false] at h
  rcases h with ⟨rfl, rfl⟩ | ⟨rfl, rfl⟩ | ⟨rfl, rfl⟩ | ⟨rfl, rfl⟩ <;> exact ⟨_, fun _ => rfl⟩

theorem exec_handle_badParam {s : State} {c : Instr} {code : Byte} (hc : ChecksHandle c code) (hs : Ready s)
    (hn : param1 s 0 = 0 ∨ 48 < param1 s 0) : exec c s = .next (s.answered code .badParam []) := by
  obtain ⟨go, hgo⟩ := hc
  rw [hgo]
  exact commanded hs (withHandle_badParam hn _)

theorem exec_handle_notFound {s : State} {c : Instr} {code : Byte} {h : Handle} (hc : ChecksHandle c code) (hs : Ready s)
    (hn : param1 s 0 = h.val + 1) (hf : s.segment h = .free) : exec c s = .next (s.answered code .notFound []) := by
  obtain ⟨go, hgo⟩ := hc
  rw [hgo]
  exact commanded hs (withHandle_notFound (h := h) (by exact hn) (by exact hf) _)

section

variable {s : State} {h : Handle} {r : Run}

theorem segSelectOwner_within (hn : param1 s 0 = h.val + 1) (hr : (s.segment h).run = some r)
    (ho : param2 s 1 2 < 32 * r.count) :
    segSelectOwner s = (s.setPointer h (param2 s 1 2)).answer .ok
      (byte (s.segment h).stateCode :: bytes2 (32 * r.count)) := by
  rw [segSelectOwner, withHandle_taken hn (isFree_of_run hr), capacity_of_run hr, if_pos ho]

theorem segSelectOwner_beyond (hn : param1 s 0 = h.val + 1) (hr : (s.segment h).run = some r)
    (ho : 32 * r.count ≤ param2 s 1 2) : segSelectOwner s = s.answer .badParam [] := by
  rw [segSelectOwner, withHandle_taken hn (isFree_of_run hr), capacity_of_run hr, if_neg (by omega)]

end

/-- Settles O18: the handle check once for the four commands, then SEG_SELECT's own check of the offset. -/
theorem handlesAreCheckedAndSelectSetsThePointer : Obligations.HandlesAreCheckedAndSelectSetsThePointer := by
  refine ⟨fun s hs => ⟨fun c code hc => ⟨exec_handle_badParam (checksHandle_of_mem hc) hs, fun h =>
    exec_handle_notFound (checksHandle_of_mem hc) hs⟩, fun hn => ?_⟩, fun s h r hs hn hr => ⟨fun ho => ?_, fun ho => ?_⟩⟩
  · refine commanded hs (show segInfoOwner _ = _ from ?_)
    rw [segInfoOwner, handleOf_none (by exact hn)]
    rfl
  · exact commanded hs (segSelectOwner_within hn hr ho)
  · exact commanded hs (segSelectOwner_beyond hn hr ho)

/-! ### SEG_SEAL -/

section

variable {s : State} {h : Handle} {r : Run}

theorem segSealOwner_taken (hn : param1 s 0 = h.val + 1) (hs : s.segment h = .opened r) (h1 : 1 ≤ param2 s 1 2)
    (h2 : param2 s 1 2 ≤ 32 * r.count) :
    segSealOwner s
      = (s.startSeal h r (param2 s 1 2) (BitVec.ofNat 32 (param4 s 3 4 5 6)) false).hold .segSeal := by
  have hr : (s.segment h).run = some r := by rw [hs]; rfl
  rw [segSealOwner, withHandle_taken hn (isFree_of_run hr), capacity_of_run hr, hs]
  exact if_neg (by omega)

theorem segSealOwner_badLength (hn : param1 s 0 = h.val + 1) (hs : s.segment h = .opened r)
    (ho : param2 s 1 2 = 0 ∨ 32 * r.count < param2 s 1 2) : segSealOwner s = s.answer .badParam [] := by
  have hr : (s.segment h).run = some r := by rw [hs]; rfl
  rw [segSealOwner, withHandle_taken hn (isFree_of_run hr), capacity_of_run hr, hs]
  exact if_pos ho

theorem segSealOwner_wrongState (hn : param1 s 0 = h.val + 1) (hr : (s.segment h).run = some r)
    (hs : ∀ q, s.segment h ≠ .opened q) : segSealOwner s = s.answer .wrongState [] := by
  rw [segSealOwner, withHandle_taken hn (isFree_of_run hr)]
  cases hg : s.segment h with
  | opened q => exact absurd hg (hs q)
  | free => rfl
  | sealing q n => rfl
  | sealed q d => rfl
  | condemned q d => rfl

end

theorem toNat_append_byte {n : Nat} (x : BitVec n) (b : Byte) : (x ++ b).toNat = 256 * x.toNat + b.toNat := by
  rw [BitVec.toNat_append, ← Nat.shiftLeft_add_eq_or_of_lt b.isLt, Nat.shiftLeft_eq]
  omega

/-- R182: the expected CRC, highest byte first, is the number of its four parameter bytes. -/
theorem ofNat_param4 (s : State) (i j k l : Fin 16) :
    BitVec.ofNat 32 (param4 s i j k l) = param s l ++ param s k ++ param s j ++ param s i := by
  apply BitVec.eq_of_toNat_eq
  have hlt := (param s l ++ param s k ++ param s j ++ param s i).isLt
  simp only [toNat_append_byte] at hlt ⊢
  rw [BitVec.toNat_ofNat, ← Nat.mod_eq_of_lt hlt]
  congr 1
  simp only [param4, param3, param2, param1]
  omega

/-- Settles O19: the checks of SEG_SEAL in their order. -/
theorem sealTakesTheCrcJobAndHoldsTheUnit : Obligations.SealTakesTheCrcJobAndHoldsTheUnit := by
  refine fun s h hs hn => ⟨fun r hg => ⟨fun h1 h2 => ?_, fun ho => commanded hs (segSealOwner_badLength hn hg ho)⟩, ?_⟩
  · rw [← ofNat_param4, ← claimCrc_eq]
    exact commanded hs (segSealOwner_taken hn hg h1 h2)
  · have hwrong : ∀ r, (s.segment h).run = some r → (∀ q, s.segment h ≠ .opened q) →
        exec .segSeal s = .next (s.answered 0x12 .wrongState []) :=
      fun r hr hg => commanded hs (segSealOwner_wrongState hn hr hg)
    rintro (⟨r, n, hg⟩ | ⟨r, d, hg⟩ | ⟨r, d, hg⟩) <;> exact hwrong r (by rw [hg]; rfl) (by rw [hg]; nofun)

end Sys2Proof.Proofs
end

section
/-! PROOF. The statements about the CRC engine's reads (R60 to R65), SEG_UNSEAL, SEG_FREE and SEG_INFO (R48 to R50), with the
scan that finds the longest free run. -/

namespace Sys2Proof.Proofs

open Sys2Proof Sys2Proof.Machine

/-! ### CRC reads -/

section

variable {s : State} {j : CrcJob} {r : Run}

theorem exec_crcWordRead (hx : s.pins.xrst = false) (hj : servedJob (windowBegun s) = some j) :
    exec .crcWordRead s = .next ((windowBegun s).foldCrcWord j) := by
  simp [exec, execCrcWordRead, outOfReset, hx, dataEnded_begun, hj]

theorem exec_crcWordRead_none (hx : s.pins.xrst = false) (hj : servedJob (windowBegun s) = none) :
    exec .crcWordRead s = .next s := by
  simp [exec, execCrcWordRead, outOfReset, hx, dataEnded_begun, hj]

theorem exec_sealComplete_last (hx : s.pins.xrst = false) (hj : servedJob (windowBegun s) = some j)
    (hl : ¬ j.offset + 1 < j.length) : exec .sealComplete s = .next ((windowBegun s).foldCrcWord j) := by
  simp [exec, execSealComplete, outOfReset, hx, dataEnded_begun, hj, hl]

theorem exec_sealComplete_before (hx : s.pins.xrst = false) (hj : servedJob (windowBegun s) = some j)
    (hl : j.offset + 1 < j.length) : exec .sealComplete s = .next s := by
  simp [exec, execSealComplete, outOfReset, hx, dataEnded_begun, hj, hl]

theorem exec_sealComplete_none (hx : s.pins.xrst = false) (hj : servedJob (windowBegun s) = none) :
    exec .sealComplete s = .next s := by
  simp [exec, execSealComplete, outOfReset, hx, dataEnded_begun, hj]

theorem servedJob_none (h : s.mem.arbiter.serving ≠ some .crcRead) : servedJob s = none := by
  unfold servedJob
  split <;> simp_all

/-- R62: a CRC read before the last word. -/
theorem foldCrcWord_before (hl : j.offset + 1 < j.length) (hr : (s.segment j.handle).run = some r) :
    s.foldCrcWord j = wordFolded s j (crc32Word j.remainder (wordAt s.mem.ram r j.offset)) := by
  rw [State.foldCrcWord, segmentWord_eq hr]
  dsimp only
  rw [if_pos hl, claimCrc_eq]
  rfl

/-- R63: the state with the job's SEALING segment sealed or opened again, the job gone and the port granted. -/
def sealEnded (s : State) (j : CrcJob) (r : Run) (crc : Crc32) : State :=
  { s with mem := { s.mem.withSegment j.handle
      (if crc = j.expected then .sealed r { length := j.length, crc := crc, references := 0 } else .opened r) with
    crcJob := none
    arbiter := s.mem.arbiter.passed } }

theorem afterSeal_sealing (n : Nat) (c e : Crc32) :
    (Segment.sealing r n).afterSeal c e
      = if c = e then .sealed r { length := n, crc := c, references := 0 } else .opened r := rfl

/-- R63, R66, R166: the CRC read of the last word decides the segment and reports the seal. -/
theorem foldCrcWord_last {crc : Crc32} (hl : ¬ j.offset + 1 < j.length) (hs : s.segment j.handle = .sealing r j.length)
    (hc : crc = crc32Word j.remainder (wordAt s.mem.ram r j.offset) ^^^ 0xFFFFFFFF) :
    s.foldCrcWord j = (sealEnded s j r crc).reportSeal j crc := by
  have hr : (s.segment j.handle).run = some r := by rw [hs]; rfl
  rw [State.foldCrcWord, segmentWord_eq hr]
  dsimp only
  rw [if_neg hl, show crc32Final _ = crc from hc.symm,
    show (s.setArbiter s.mem.arbiter.finish).segment j.handle = .sealing r j.length from hs, afterSeal_sealing]
  simp only [State.setSegment_arbiter, State.setArbiter_arbiter, finish_grant]
  rfl

/-- R66: a seal that serves a SEG_SEAL answers it. -/
theorem reportSeal_command (h : j.forLoader = false) (crc : Crc32) :
    s.reportSeal j crc
      = (s.release (if crc = j.expected then .ok else .crcMismatch) (bytes4 crc.toNat)).raise .cmdDone := by
  rw [State.reportSeal, h]
  rfl

end

/-- Settles O20: a read before the last word, no read at all, and the read of the last word. -/
theorem crcReadsFoldEveryWordAndTheLastOneCompletesTheSeal :
    Obligations.CrcReadsFoldEveryWordAndTheLastOneCompletesTheSeal := by
  refine ⟨?_, ?_⟩
  · rintro s a hx rfl
    refine ⟨fun j r hs hj hr hl => ?_, fun hs => ?_⟩
    · have hjob : servedJob (windowBegun s) = some j := servedJob_iff.mpr ⟨hs, hj⟩
      refine ⟨?_, exec_sealComplete_before hx hjob hl⟩
      rw [exec_crcWordRead hx hjob, foldCrcWord_before hl (by exact hr)]
      rfl
    · have hjob : servedJob (windowBegun s) = none := servedJob_none hs
      exact ⟨exec_crcWordRead_none hx hjob, exec_sealComplete_none hx hjob⟩
  · intro s j r crc hx hs hj hf hg hl hc c hcase
    have hjob : servedJob (windowBegun s) = some j := servedJob_iff.mpr ⟨hs, hj⟩
    have hlast : ¬ j.offset + 1 < j.length := by omega
    have hexec : exec c s = .next ((windowBegun s).foldCrcWord j) := by
      rcases hcase with rfl | rfl
      · exact exec_crcWordRead hx hjob
      · exact exec_sealComplete_last hx hjob hlast
    rw [hexec, foldCrcWord_last hlast (by exact hg) (by exact hc), reportSeal_command hf]
    rfl

/-! ### SEG_UNSEAL and SEG_FREE -/

section

variable {s : State} {h : Handle} {r : Run} {d : SealData}

theorem segUnsealOwner_taken (hn : param1 s 0 = h.val + 1) (hs : s.segment h = .sealed r d) (hd : d.references = 0) :
    segUnsealOwner s = (s.setSegment h (.opened r)).answer .ok [] := by
  rw [segUnsealOwner, withHandle_taken hn (isFree_of_run (by rw [hs]; rfl)), hs]
  exact if_pos hd

theorem segUnsealOwner_named (hn : param1 s 0 = h.val + 1) (hs : s.segment h = .sealed r d) (hd : 0 < d.references) :
    segUnsealOwner s = s.answer .wrongState [] := by
  rw [segUnsealOwner, withHandle_taken hn (isFree_of_run (by rw [hs]; rfl)), hs]
  exact if_neg (by omega)

theorem segUnsealOwner_wrongState (hn : param1 s 0 = h.val + 1) (hr : (s.segment h).run = some r)
    (hs : ∀ q d, s.segment h ≠ .sealed q d) : segUnsealOwner s = s.answer .wrongState [] := by
  rw [segUnsealOwner, withHandle_taken hn (isFree_of_run hr)]
  cases hg : s.segment h with
  | sealed q d => exact absurd hg (hs q d)
  | free => rfl
  | opened q => rfl
  | sealing q n => rfl
  | condemned q d => rfl

theorem freeSegment_opened (hs : s.segment h = .opened r) :
    s.freeSegment h = { s with mem := (s.mem.withSegment h .free).pointerOff h } := by
  rw [State.freeSegment, hs]
  exact releaseSegment_eq s h

theorem freeSegment_unnamed (hs : s.segment h = .sealed r d) (hd : d.references = 0) :
    s.freeSegment h = { s with mem := (s.mem.withSegment h .free).pointerOff h } := by
  rw [State.freeSegment, hs]
  exact (if_pos hd).trans (releaseSegment_eq s h)

theorem freeSegment_named (hs : s.segment h = .sealed r d) (hd : 0 < d.references) :
    s.freeSegment h = { s with mem := (s.mem.withSegment h (.condemned r d)).pointerOff h } := by
  rw [State.freeSegment, hs]
  exact (if_neg (by omega)).trans (unsetPointerOn_eq _ h)

theorem segment_pointerOff (g : Segment) :
    ({ s with mem := (s.mem.withSegment h g).pointerOff h } : State).segment h = g := by
  have hp : ∀ m : PatchMemory, (m.pointerOff h).segments = m.segments := by
    intro m
    unfold PatchMemory.pointerOff
    split <;> rfl
  simp [State.segment, hp, PatchMemory.withSegment]

theorem segFreeOwner_opened (hn : param1 s 0 = h.val + 1) (hs : s.segment h = .opened r) :
    segFreeOwner s = ({ s with mem := (s.mem.withSegment h .free).pointerOff h } : State).answer .ok [0, 0] := by
  rw [segFreeOwner, withHandle_taken hn (isFree_of_run (by rw [hs]; rfl)), hs, freeSegment_opened hs, segment_pointerOff]
  rfl

theorem segFreeOwner_unnamed (hn : param1 s 0 = h.val + 1) (hs : s.segment h = .sealed r d) (hd : d.references = 0) :
    segFreeOwner s = ({ s with mem := (s.mem.withSegment h .free).pointerOff h } : State).answer .ok [0, 0] := by
  rw [segFreeOwner, withHandle_taken hn (isFree_of_run (by rw [hs]; rfl)), hs, freeSegment_unnamed hs hd,
    segment_pointerOff]
  rfl

theorem segFreeOwner_named (hn : param1 s 0 = h.val + 1) (hs : s.segment h = .sealed r d) (hd : 0 < d.references) :
    segFreeOwner s = ({ s with mem := (s.mem.withSegment h (.condemned r d)).pointerOff h } : State).answer .ok
      [4, byte d.references] := by
  rw [segFreeOwner, withHandle_taken hn (isFree_of_run (by rw [hs]; rfl)), hs, freeSegment_named hs hd, segment_pointerOff]
  rfl

theorem segFreeOwner_wrongState (hn : param1 s 0 = h.val + 1)
    (hs : (∃ r n, s.segment h = .sealing r n) ∨ ∃ r d, s.segment h = .condemned r d) :
    segFreeOwner s = s.answer .wrongState [] := by
  rcases hs with ⟨r, n, hg⟩ | ⟨r, d, hg⟩ <;>
    rw [segFreeOwner, withHandle_taken hn (isFree_of_run (by rw [hg]; rfl)), hg]

end

theorem windowBegun_pointerOff (s : State) (h : Handle) (g : Segment) :
    windowBegun { s with mem := (s.mem.withSegment h g).pointerOff h }
      = { s with mem := ((windowBegun s).mem.withSegment h g).pointerOff h } := by
  unfold PatchMemory.pointerOff
  show windowBegun { s with mem := if s.mem.pointer.any _ then _ else _ }
    = { s with mem := if s.mem.pointer.any _ then _ else _ }
  split <;> rfl

/-- R50, R54: a SEG_FREE that is taken leaves the segment in its new state and takes the pointer off it. -/
theorem exec_segFree_taken {s : State} {h : Handle} {g : Segment} {bs : List Byte} (hs : Ready s)
    (ho : segFreeOwner ((windowBegun s).setCommand 0x14)
      = State.answer { (windowBegun s).setCommand 0x14 with
          mem := (((windowBegun s).setCommand 0x14).mem.withSegment h g).pointerOff h } .ok bs) :
    exec .segFree s = .next (State.answered { s with mem := (s.mem.withSegment h g).pointerOff h } 0x14 .ok bs) := by
  refine commanded hs (ho.trans ?_)
  rw [State.answered, windowBegun_pointerOff]
  rfl

/-- Settles O21: each command by the state of its segment. -/
theorem unsealReopensAndFreeReleasesOrCondemns : Obligations.UnsealReopensAndFreeReleasesOrCondemns := by
  refine ⟨fun s h hs hn => ⟨fun r d hg hd => commanded hs (segUnsealOwner_taken hn hg hd), ?_⟩,
    fun s h hs hn => ⟨?_, fun r d hg hd => ?_, fun hg => commanded hs (segFreeOwner_wrongState hn hg)⟩⟩
  · have hwrong : ∀ r, (s.segment h).run = some r → (∀ q d, s.segment h ≠ .sealed q d) →
        exec .segUnseal s = .next (s.answered 0x13 .wrongState []) :=
      fun r hr hg => commanded hs (segUnsealOwner_wrongState hn hr hg)
    rintro (⟨r, hg⟩ | ⟨r, n, hg⟩ | ⟨r, d, hg, hd⟩ | ⟨r, d, hg⟩)
    · exact hwrong r (by rw [hg]; rfl) (by rw [hg]; nofun)
    · exact hwrong r (by rw [hg]; rfl) (by rw [hg]; nofun)
    · exact commanded hs (segUnsealOwner_named hn hg hd)
    · exact hwrong r (by rw [hg]; rfl) (by rw [hg]; nofun)
  · rintro (⟨r, hg⟩ | ⟨r, d, hg, hd⟩)
    · exact exec_segFree_taken hs (segFreeOwner_opened hn hg)
    · exact exec_segFree_taken hs (segFreeOwner_unnamed hn hg hd)
  · exact exec_segFree_taken hs (segFreeOwner_named hn hg hd)

/-! ### The longest free run -/

/-- The numbers from `i` on are `n` that satisfy `f`. -/
def TrueRun (f : Nat → Bool) (i n : Nat) : Prop := ∀ j < n, f (i + j) = true

/-- What the scan of the numbers below `N` has found: the length of the run that ends at `N`, and that of the longest one. -/
structure Scanned (f : Nat → Bool) (N : Nat) (a : Nat × Nat) : Prop where
  ends : ∃ i, i + a.1 = N ∧ TrueRun f i a.1
  endsMost : ∀ i n, i + n = N → TrueRun f i n → n ≤ a.1
  best : ∃ i, i + a.2 ≤ N ∧ TrueRun f i a.2
  bestMost : ∀ i n, i + n ≤ N → TrueRun f i n → n ≤ a.2

/-- One step of the scan. -/
def scanStep (a : Nat × Nat) (b : Bool) : Nat × Nat := if b then (a.1 + 1, max a.2 (a.1 + 1)) else (0, a.2)

theorem longestRun_eq (bs : List Bool) : longestRun bs = (bs.foldl scanStep (0, 0)).2 := rfl

theorem trueRun_zero (f : Nat → Bool) (i : Nat) : TrueRun f i 0 := by simp [TrueRun]

theorem trueRun_succ {f : Nat → Bool} {i n : Nat} : TrueRun f i (n + 1) ↔ TrueRun f i n ∧ f (i + n) = true := by
  simp only [TrueRun, Nat.lt_succ_iff_lt_or_eq, or_imp, forall_and, forall_eq]

theorem scanned_zero (f : Nat → Bool) : Scanned f 0 (0, 0) :=
  ⟨⟨0, rfl, trueRun_zero f 0⟩, fun i n h _ => by dsimp only; omega, ⟨0, le_rfl, trueRun_zero f 0⟩,
    fun i n h _ => by dsimp only; omega⟩

theorem scanned_true {f : Nat → Bool} {N : Nat} {a : Nat × Nat} (h : Scanned f N a) (hf : f N = true) :
    Scanned f (N + 1) (scanStep a true) := by
  obtain ⟨⟨i, hi, hri⟩, hmax, ⟨k, hk, hrk⟩, hbest⟩ := h
  have hlong : TrueRun f i (a.1 + 1) := trueRun_succ.mpr ⟨hri, by rw [hi]; exact hf⟩
  have hmost : ∀ i n, i + n = N + 1 → TrueRun f i n → n ≤ a.1 + 1 := by
    intro i n hin hr
    cases n with
    | zero => omega
    | succ n => exact Nat.succ_le_succ (hmax i n (by omega) (trueRun_succ.mp hr).1)
  refine ⟨⟨i, show i + (a.1 + 1) = N + 1 by omega, hlong⟩, hmost, ?_, fun i n hin hr => ?_⟩
  · rcases le_total a.2 (a.1 + 1) with hle | hle
    · refine ⟨i, ?_, ?_⟩
      · simp only [scanStep, if_true, max_eq_right hle]
        omega
      · simpa only [scanStep, if_true, max_eq_right hle] using hlong
    · refine ⟨k, ?_, ?_⟩
      · simp only [scanStep, if_true, max_eq_left hle]
        omega
      · simpa only [scanStep, if_true, max_eq_left hle] using hrk
  · show n ≤ max a.2 (a.1 + 1)
    rcases Nat.lt_or_ge N (i + n) with hlt | hge
    · exact le_max_of_le_right (hmost i n (by omega) hr)
    · exact le_max_of_le_left (hbest i n hge hr)

theorem scanned_false {f : Nat → Bool} {N : Nat} {a : Nat × Nat} (h : Scanned f N a) (hf : f N = false) :
    Scanned f (N + 1) (scanStep a false) := by
  have hnone : ∀ i n, i + n = N + 1 → TrueRun f i n → n = 0 := by
    intro i n hin hr
    cases n with
    | zero => rfl
    | succ n =>
      have hlast := (trueRun_succ.mp hr).2
      rw [show i + n = N by omega, hf] at hlast
      cases hlast
  obtain ⟨k, hk, hrk⟩ := h.best
  refine ⟨⟨N + 1, rfl, trueRun_zero f _⟩, fun i n hin hr => (hnone i n hin hr).le, ⟨k, Nat.le_succ_of_le hk, hrk⟩,
    fun i n hin hr => ?_⟩
  rcases Nat.lt_or_ge N (i + n) with hlt | hge
  · rw [hnone i n (by omega) hr]
    exact Nat.zero_le _
  · exact h.bestMost i n hge hr

theorem scanned_range (f : Nat → Bool) (N : Nat) : Scanned f N (((List.range N).map f).foldl scanStep (0, 0)) := by
  induction N with
  | zero => exact scanned_zero f
  | succ N ih =>
    rw [List.range_succ, List.map_append, List.foldl_append]
    cases hf : f N with
    | true => simpa [hf] using scanned_true ih hf
    | false => simpa [hf] using scanned_false ih hf

theorem runIsFree_iff {s : State} {g k : Nat} : RunIsFree s g k ↔ g + k ≤ 512 ∧ TrueRun (granuleFree s) g k := by
  simp only [RunIsFree, TrueRun, granuleFree_iff, Config.granules]

/-- R48: the scan finds the length of a longest run of free granules. -/
theorem longestFreeRun_eq {s : State} {n : Nat} (hex : ∃ g, RunIsFree s g n) (hmax : ∀ g m, RunIsFree s g m → m ≤ n) :
    longestFreeRun s = n := by
  have h := scanned_range (granuleFree s) 512
  rw [longestFreeRun, longestRun_eq]
  apply le_antisymm
  · obtain ⟨i, hi, hr⟩ := h.best
    exact hmax i _ (runIsFree_iff.mpr ⟨hi, hr⟩)
  · obtain ⟨g, hg⟩ := hex
    obtain ⟨hle, hr⟩ := runIsFree_iff.mp hg
    exact h.bestMost g n hle hr

/-! ### SEG_INFO -/

theorem freeHandles_eq (s : State) : freeHandles s = (List.finRange 48).countP fun k => s.segment k = .free := by
  unfold freeHandles
  apply List.countP_congr
  intro k _
  rw [isFree_eq_true_iff, decide_eq_true_iff]

theorem freeGranules_eq (s : State) : freeGranules s = (List.range 512).countP fun g => decide (RunIsFree s g 1) := by
  unfold freeGranules
  apply List.countP_congr
  intro g hg
  have hlt : g < 512 := List.mem_range.mp hg
  rw [decide_eq_true_iff, runIsFree_iff, trueRun_succ]
  exact ⟨fun h => ⟨by omega, trueRun_zero _ _, h⟩, fun h => h.2.2⟩

theorem firstGranule_eq {g : Segment} {n : Nat} (h1 : ∀ r, g.run = some r → n = r.first) (h0 : g.run = none → n = 0) :
    g.firstGranule = n := by
  unfold Segment.firstGranule
  cases hr : g.run with
  | none => exact (h0 hr).symm
  | some r => exact (h1 r hr).symm

theorem granuleCount_eq {g : Segment} {n : Nat} (h1 : ∀ r, g.run = some r → n = r.count) (h0 : g.run = none → n = 0) :
    g.granuleCount = n := by
  unfold Segment.granuleCount
  cases hr : g.run with
  | none => exact (h0 hr).symm
  | some r => exact (h1 r hr).symm

theorem segInfoOwner_eq {s : State} {h : Handle} (hn : param1 s 0 = h.val + 1) :
    segInfoOwner s = s.answer .ok (infoBytes s (s.segment h)) := by
  rw [segInfoOwner, hn, handleOf_number]

/-- Settles O22: the fields of the packed answer, one by one. -/
theorem infoReportsTheDescriptorAndThePool : Obligations.InfoReportsTheDescriptorAndThePool := by
  intro s h longest first count hs hn hex hmax hrun hnone
  refine commanded hs ((segInfoOwner_eq (s := (windowBegun s).setCommand 0x15) hn).trans ?_)
  refine congrArg (s.answered 0x15 .ok) (?_ : infoBytes s (s.segment h) = _)
  rw [infoBytes, longestFreeRun_eq hex hmax, freeHandles_eq, freeGranules_eq,
    firstGranule_eq (fun r hr => (hrun r hr).1) fun hr => (hnone hr).1,
    granuleCount_eq (fun r hr => (hrun r hr).2) fun hr => (hnone hr).2]
  cases s.mem.pointer <;> rfl

end Sys2Proof.Proofs
end

section
/-! PROOF. The statements about the data port (R54 to R58) and about the words of a sealed segment (R28, R56, R157): the two
pointers that an access may find, what a store leaves, and which commands leave patch RAM alone. -/

namespace Sys2Proof.Proofs

open Sys2Proof Sys2Proof.Machine

/-! ### The data port -/

section

variable {s : State} {p : DataPointer} {r : Run}

theorem writablePointer_at (hl : s.loader.state ≠ .running) (hp : s.mem.pointer = some p)
    (hg : s.segment p.handle = .opened r) (ho : p.offset < 32 * r.count) : writablePointer s = some p := by
  rw [writablePointer, loaderRunning_false hl, if_neg Bool.false_ne_true, hp]
  dsimp only
  rw [hg, capacity_of_run (r := r) rfl]
  exact if_pos ho

theorem writablePointer_none (h : s.loader.state = .running ∨ s.mem.pointer = none
      ∨ ∃ p, s.mem.pointer = some p ∧
          ((∀ r, s.segment p.handle ≠ .opened r) ∨ ∃ r, s.segment p.handle = .opened r ∧ 32 * r.count ≤ p.offset)) :
    writablePointer s = none := by
  unfold writablePointer
  rcases h with hl | hp | ⟨p, hp, hg | ⟨r, hg, ho⟩⟩
  · exact if_pos (loaderRunning_true hl)
  · rw [hp]
    exact ite_self none
  · rw [hp]
    dsimp only
    cases hs : s.segment p.handle with
    | opened r => exact absurd hs (hg r)
    | _ => exact ite_self none
  · rw [hp]
    dsimp only
    rw [hg, capacity_of_run (r := r) rfl]
    dsimp only
    rw [if_neg (show ¬ p.offset < 32 * r.count by omega)]
    exact ite_self none

theorem readablePointer_at (hl : s.loader.state ≠ .running) (hp : s.mem.pointer = some p)
    (hr : (s.segment p.handle).run = some r) (ho : p.offset < 32 * r.count) : readablePointer s = some p := by
  rw [readablePointer, hp]
  dsimp only
  rw [if_neg (by simp [loaderRunning_false hl]), if_neg (by simp [isFree_of_run hr]), capacity_of_run hr, if_pos ho]

theorem readablePointer_none (h : s.loader.state = .running ∨ s.mem.pointer = none
      ∨ ∃ p r, s.mem.pointer = some p ∧ (s.segment p.handle).run = some r ∧ 32 * r.count ≤ p.offset) :
    readablePointer s = none := by
  unfold readablePointer
  rcases h with hl | hp | ⟨p, r, hp, hr, ho⟩
  · cases s.mem.pointer with
    | none => rfl
    | some p => exact if_pos (loaderRunning_true hl)
  · rw [hp]
  · rw [hp]
    dsimp only
    rw [capacity_of_run hr, if_neg (show ¬ p.offset < 32 * r.count by omega), ite_self, ite_self]

theorem heldByte_some {b : Byte} (hl : s.loader.state ≠ .running) (hb : s.mem.readLatch = some b) :
    heldByte s = some b := by
  rw [heldByte, loaderRunning_false hl, hb]
  rfl

theorem heldByte_none (h : s.loader.state = .running ∨ s.mem.readLatch = none) : heldByte s = none := by
  unfold heldByte
  rcases h with hl | hb
  · exact if_pos (loaderRunning_true hl)
  · rw [hb]
    exact ite_self none

/-- R42: a store at an offset of a segment. -/
theorem storeSegmentWord_eq {h : Handle} (hr : (s.segment h).run = some r) (o : Nat) (w : Word) :
    s.storeSegmentWord h o w = { s with mem := { s.mem with ram := ramStore s.mem.ram (32 * r.first + o) w } } := by
  simp [State.storeSegmentWord, Segment.position, hr, Config.granuleWords, Nat.mul_comm]

theorem writeDataHi_taken (hl : s.loader.state ≠ .running) (hp : s.mem.pointer = some p)
    (hg : s.segment p.handle = .opened r) (ho : p.offset < 32 * r.count) (v : Byte) :
    s.writeDataHi v = { s with
      mem := { s.mem with
        ram := ramStore s.mem.ram (32 * r.first + p.offset) (v ++ s.mem.writeLatch)
        pointer := some { p with offset := p.offset + 1 }
        arbiter := s.mem.arbiter.dataAsked } } := by
  rw [State.writeDataHi, writablePointer_at hl hp hg ho]
  dsimp only
  rw [storeSegmentWord_eq (r := r) (by rw [hg]; rfl), claimData_state_eq]
  rfl

theorem segmentWord_bytes {h : Handle} (hr : (s.segment h).run = some r) (o : Nat) :
    highByte (s.segmentWord h o) = Memory.read s.mem.ram (2 * (32 * r.first + o) + 1)
      ∧ lowByte (s.segmentWord h o) = Memory.read s.mem.ram (2 * (32 * r.first + o)) := by
  rw [segmentWord_eq hr]
  exact wordOf_parts _ _

theorem readDataLo_served (hl : s.loader.state ≠ .running) (hp : s.mem.pointer = some p)
    (hr : (s.segment p.handle).run = some r) (ho : p.offset < 32 * r.count) :
    s.readDataLo = { s with
      mem := { s.mem with
        readLatch := some (Memory.read s.mem.ram (2 * (32 * r.first + p.offset) + 1))
        arbiter := s.mem.arbiter.dataAsked }
      windowData := some (Memory.read s.mem.ram (2 * (32 * r.first + p.offset))) } := by
  rw [State.readDataLo, readablePointer_at hl hp hr ho]
  dsimp only
  rw [(segmentWord_bytes hr _).1, (segmentWord_bytes hr _).2, claimData_state_eq]
  rfl

theorem advancePointer_eq (hp : s.mem.pointer = some p) (hr : (s.segment p.handle).run = some r) :
    s.advancePointer = { s with mem := { s.mem with
      pointer := some { p with offset := if p.offset < 32 * r.count then p.offset + 1 else p.offset } } } := by
  rw [State.advancePointer, hp]
  dsimp only
  rw [capacity_of_run hr]
  split
  · rfl
  · rw [← hp]

theorem readDataHi_served {b : Byte} (hl : s.loader.state ≠ .running) (hp : s.mem.pointer = some p)
    (hr : (s.segment p.handle).run = some r) (hb : s.mem.readLatch = some b) :
    s.readDataHi = { s with
      mem := { s.mem with
        readLatch := none
        pointer := some { p with offset := if p.offset < 32 * r.count then p.offset + 1 else p.offset } }
      windowData := some b } := by
  rw [State.readDataHi, heldByte_some hl hb]
  dsimp only
  rw [advancePointer_eq (s := s.setReadLatch none) (by exact hp) (by exact hr)]
  rfl

theorem readDataLo_refused (h : readablePointer s = none) :
    s.readDataLo = { s with mem := { s.mem with readLatch := none, dataReject := true }, windowData := some 0xFF } := by
  rw [State.readDataLo, h]
  rfl

theorem readDataHi_refused (h : heldByte s = none) :
    s.readDataHi = { s with mem := { s.mem with dataReject := true }, windowData := some 0xFF } := by
  rw [State.readDataHi, h]
  rfl

theorem exec_dataHiWrite (hx : s.pins.xrst = false) (v : Byte) :
    exec (.dataHiWrite v) s = .next ((windowBegun s).writeDataHi v) :=
  show execDataHiWrite v s = _ from windowEvent_eq hx _

theorem exec_dataLoRead (hx : s.pins.xrst = false) : exec .dataLoRead s = .next (windowBegun s).readDataLo := by
  simp [exec, execDataLoRead, hx, dataEnded_begun]

theorem exec_dataHiRead (hx : s.pins.xrst = false) : exec .dataHiRead s = .next (windowBegun s).readDataHi := by
  simp [exec, execDataHiRead, hx, dataEnded_begun]

end

/-- Settles O23: the two writes, then the two reads, by what they find at the pointer. -/
theorem theDataPortReadsAndWritesAtThePointer : Obligations.TheDataPortReadsAndWritesAtThePointer := by
  refine ⟨fun s v hx => ⟨(show execDataLoWrite v s = _ from windowEvent_eq hx _), fun p r hm hl hp hg ho => ?_,
    fun h => ?_⟩, fun s hx =>
    ⟨fun hl p r hp hr => ⟨fun ho => ?_, fun b hb => ?_⟩, fun h => ?_, fun h => ?_⟩⟩
  · refine ⟨_, ?_, Memory.wf_ramStore s.mem.ram _ _ hm, wordStored_ramStore _ _ _ _ hm⟩
    rw [exec_dataHiWrite hx, writeDataHi_taken (s := windowBegun s) hl hp hg ho]
    rfl
  · rw [exec_dataHiWrite hx, State.writeDataHi, writablePointer_none (s := windowBegun s) h]
    rfl
  · rw [exec_dataLoRead hx, readDataLo_served (s := windowBegun s) hl hp hr ho]
    rfl
  · rw [exec_dataHiRead hx, readDataHi_served (s := windowBegun s) hl hp hr hb]
    rfl
  · rw [exec_dataLoRead hx, readDataLo_refused (readablePointer_none (s := windowBegun s) h)]
    rfl
  · rw [exec_dataHiRead hx, readDataHi_refused (heldByte_none (s := windowBegun s) h)]
    rfl

/-! ### Commands that leave patch RAM alone -/

section

variable (s : State)

@[simp] theorem segInfoOwner_ram : (segInfoOwner s).mem.ram = s.mem.ram := by unfold segInfoOwner; split <;> rfl

@[simp] theorem tblReadOwner_ram : (tblReadOwner s).mem.ram = s.mem.ram := by unfold tblReadOwner; split <;> rfl

@[simp] theorem cntClearOwner_ram : (cntClearOwner s).mem.ram = s.mem.ram := by
  unfold cntClearOwner
  (repeat' split) <;> rfl

@[simp] theorem confirmOwner_ram : (confirmOwner s).mem.ram = s.mem.ram := by unfold confirmOwner; split <;> rfl

@[simp] theorem logPopOwner_ram : (logPopOwner s).mem.ram = s.mem.ram := by unfold logPopOwner; split <;> rfl

end

section

variable {s t : State}

theorem outOfReset_ram {f : State → State} (hf : (f s).mem.ram = s.mem.ram) (h : outOfReset s f = .next t) :
    t.mem.ram = s.mem.ram := by
  rcases outOfReset_next s t f h with rfl | ⟨-, rfl⟩
  · rfl
  · exact hf

theorem windowEvent_ram {f : State → State} (hf : ∀ u, (f u).mem.ram = u.mem.ram) (h : windowEvent s f = .next t) :
    t.mem.ram = s.mem.ram :=
  outOfReset_ram (f := fun u => f u.dataEnded) (hf _) h

theorem commandEvent_ram {code : Byte} {w : Bool} {owner : State → State} (ho : ∀ u, (owner u).mem.ram = u.mem.ram)
    (h : commandEvent code w owner s = .next t) : t.mem.ram = s.mem.ram := by
  rcases commandEvent_next code w owner s t h with rfl | rfl | rfl | ⟨-, -, -, rfl⟩
  · rfl
  · rfl
  · rfl
  · exact ho _

theorem record_ram {bs : List Byte} {act : State → State} (ha : ∀ u, (act u).mem.ram = u.mem.ram) :
    (s.record bs act).mem.ram = s.mem.ram := by
  unfold State.record
  split
  · rfl
  · split
    · exact State.failRecord_ram _ _
    · exact ha _

/-- R42: what a command that is neither a write of RAM nor the end of power-on leaves. -/
theorem exec_ram {c : Instr} (h : exec c s = .next t) (hp : ∀ l a f, c ≠ .powerOn l a f) (hd : ∀ v, c ≠ .dataHiWrite v)
    (hw : ∀ w, c ≠ .segmentWord w) (hz : c ≠ .zeroFillEnd) : t.mem.ram = s.mem.ram := by
  unfold exec at h
  cases c with
  | powerOn l a f => exact absurd rfl (hp l a f)
  | dataHiWrite v => exact absurd rfl (hd v)
  | segmentWord w => exact absurd rfl (hw w)
  | zeroFillEnd => exact absurd rfl hz
  | xrstAssert | xrstRelease | trstAssert | trstRelease | freqPresent | freqRelease | dataLoRead | dataHiRead =>
    cases h
    (repeat' split) <;> simp [State.resetBlocks, State.startRun]
  | segAlloc | segSelect | segSeal | segUnseal | segFree | segInfo | stgInsert | stgRemove | stgClear | stgCopyLive
  | tblRead | cntClear | commit | commitAbort | revert | confirm | logPop =>
    exact commandEvent_ram (fun u => by simp) h
  | genStatus | logClear | ldrStatus => exact commandEvent_ram (fun u => by rfl) h
  | badCommand =>
    dsimp only [execBadCommand] at h
    split at h
    · cases h
      rfl
    · exact windowEvent_ram (fun u => by unfold badCommandEffect; split <;> rfl) h
  | parameterWrite => exact windowEvent_ram (fun u => by unfold State.writeParam; split <;> rfl) h
  | statusWrite | intPendWrite | intEnWrite | dataLoWrite | windowWriteIgnored => exact windowEvent_ram (fun u => by rfl) h
  | segmentRecord => exact outOfReset_ram (record_ram fun u => by simp) h
  | entryRecord => exact outOfReset_ram (record_ram fun u => by simp) h
  | endRecord => exact outOfReset_ram (record_ram fun u => by simp) h
  | _ =>
    refine outOfReset_ram ?_ h
    (repeat' split) <;> simp

end

/-! ### The words of a sealed segment -/

/-- R56, R166: the new RAM is the old one with a word stored in an OPEN segment. -/
def StoredInOpen (s t : State) : Prop :=
  ∃ (k : Handle) (q : Run) (o : Nat) (w : Word), s.segment k = .opened q ∧ o < 32 * q.count
    ∧ t.mem.ram = ramStore s.mem.ram (32 * q.first + o) w

section

variable {s t : State}

theorem writeDataHi_stored (v : Byte) : s.writeDataHi v = s.rejectData ∨ StoredInOpen s (s.writeDataHi v) := by
  cases h : writablePointer s with
  | none =>
    left
    rw [State.writeDataHi, h]
  | some p =>
    obtain ⟨hl, hp, ⟨r, hr⟩, ho⟩ := writablePointer_some h
    have hlt : p.offset < 32 * r.count := by rwa [hr, capacity_of_run (r := r) rfl] at ho
    exact .inr ⟨p.handle, r, p.offset, _, hr, hlt, by rw [writeDataHi_taken hl hp hr hlt]⟩

theorem loadWord_ram {p : SegmentProgress} {r : Run} (hs : s.segment p.handle = .opened r) (w : Word) :
    (s.loadWord p w).mem.ram = ramStore s.mem.ram (32 * r.first + p.written) w := by
  have hrun : ((s.readBody [lowByte w, highByte w]).dataEnded.segment p.handle).run = some r := by
    rw [show (s.readBody [lowByte w, highByte w]).dataEnded.segment p.handle = .opened r from hs]
    rfl
  simp [State.loadWord, storeSegmentWord_eq hrun]

theorem segmentWord_stored {w : Word} (hp : progressForm s = true) (h : exec (.segmentWord w) s = .next t) :
    t.mem.ram = s.mem.ram ∨ StoredInOpen s t := by
  rcases outOfReset_next s t _ (show execSegmentWord w s = .next t from h) with rfl | ⟨-, rfl⟩
  · exact .inl rfl
  · split
    · exact .inl rfl
    · rename_i p hcur
      split
      · split
        · rename_i r hs
          obtain ⟨-, -, hw, hl, -⟩ := (progress_opened_iff hcur hs).mp hp
          have hlt : p.written < 32 * r.count := by
            rw [Config.granuleWords] at hl
            omega
          refine .inr ⟨p.handle, r, p.written, w, hs, hlt, ?_⟩
          split
          · exact loadWord_ram hs w
          · exact (State.loaderSeal_ram _ _ _).trans (loadWord_ram hs w)
        all_goals exact .inl rfl
      · exact .inl rfl

theorem zeroFillEnd_ram (hf : FillForm s) (h : exec .zeroFillEnd s = .next t) :
    t.mem.ram = s.mem.ram ∨ ∀ k : Handle, s.segment k = .free := by
  rcases outOfReset_next s t _ (show execZeroFillEnd s = .next t from h) with rfl | ⟨-, rfl⟩
  · exact .inl rfl
  · split
    · exact .inr (hf ‹_›)
    · exact .inl rfl

/-- A store in one run leaves the words of another. -/
theorem wordAt_ramStore_apart {m : List Host.Cell} {q r : Run} {o i : Nat} (hm : Memory.wf m = true)
    (ha : q.apart r = true) (ho : o < 32 * q.count) (hi : i < 32 * r.count) (w : Word) :
    wordAt (ramStore m (32 * q.first + o) w) r i = wordAt m r i := by
  have hne : 32 * r.first + i ≠ 32 * q.first + o := by
    simp only [Run.apart, Bool.or_eq_true, decide_eq_true_eq] at ha
    omega
  obtain ⟨-, hkeep⟩ := wordStored_ramStore m q o w hm
  rw [wordAt, hkeep _ (by omega) (by omega), hkeep _ (by omega) (by omega), wordAt]

/-- A word stored in an OPEN segment leaves the words of every other run. -/
theorem wordAt_storedInOpen {h : Handle} {r : Run} {i : Nat} (hf : Forms s) (hs : StoredInOpen s t)
    (hr : (s.segment h).run = some r) (hne : s.segment h ≠ .opened r) (hi : i < 32 * r.count) :
    wordAt t.mem.ram r i = wordAt s.mem.ram r i := by
  obtain ⟨k, q, o, w, hk, ho, hram⟩ := hs
  have hkh : k ≠ h := by
    rintro rfl
    rw [hk] at hr hne
    cases hr
    exact hne rfl
  have ha : q.apart r = true := by
    have := hf.runs.1.2 k h hkh
    unfold Segment.apart at this
    rw [hr, hk] at this
    exact this
  rw [hram]
  exact wordAt_ramStore_apart hf.memory ha ho hi w

end

/-- Settles O24: only a store and the zero-fill change patch RAM; a store is in an OPEN segment, whose run is apart. -/
theorem theWordsOfASealedSegmentNeverChange : Obligations.TheWordsOfASealedSegmentNeverChange := by
  intro s t c h r i hinv hexec hpower hr hne hi
  have hf := inv_iff.mp hinv
  have hfree : s.segment h ≠ .free := by
    intro he
    rw [he] at hr
    cases hr
  have hsame : t.mem.ram = s.mem.ram → wordAt t.mem.ram r i = wordAt s.mem.ram r i := fun e => by rw [e]
  by_cases hd : ∃ v, c = .dataHiWrite v
  · obtain ⟨v, rfl⟩ := hd
    rcases windowEvent_next s t _ (show execDataHiWrite v s = .next t from hexec) with rfl | ⟨-, rfl⟩
    · rfl
    · rw [dataEnded_begun]
      rcases writeDataHi_stored (s := windowBegun s) v with he | hst
      · rw [he]
        rfl
      · exact wordAt_storedInOpen (s := s) hf hst hr hne hi
  by_cases hw : ∃ w, c = .segmentWord w
  · obtain ⟨w, rfl⟩ := hw
    rcases segmentWord_stored hf.body.1 hexec with he | hst
    · exact hsame he
    · exact wordAt_storedInOpen hf hst hr hne hi
  by_cases hz : c = .zeroFillEnd
  · subst hz
    rcases zeroFillEnd_ram hf.body.2.2 hexec with he | hall
    · exact hsame he
    · exact absurd (hall h) hfree
  · exact hsame (exec_ram hexec hpower (fun v e => hd ⟨v, e⟩) (fun w e => hw ⟨w, e⟩) hz)

end Sys2Proof.Proofs
end

section
/-! PROOF. The statements about the staged table and the counts (R18, R33, R52, R53, R73 to R82, R181): what an insert asks
for and what refuses it, what leaves STAGED, and what the reads and the clears of the counts answer. -/

namespace Sys2Proof.Proofs

open Sys2Proof Sys2Proof.Machine

/-! ### What an insert asks for (R73, R75) -/

theorem appliesOf_eq_some {b : Byte} {a : Applies} (h : appliesOf b = some a) : b.toNat = a.number := by
  unfold appliesOf at h
  split at h
  · next e => cases h; rw [e]; rfl
  · split at h
    · next e => cases h; rw [e]; rfl
    · split at h
      · next e => cases h; rw [e]; rfl
      · cases h

/-- R73: the fields of a request that its kind uses are those of a body. -/
def InsertBody (r : InsertRequest) (b : EntryBody) : Prop :=
  match b with
  | .replace h o => r.kind = 1 ∧ r.segment = h.val + 1 ∧ r.offset = o ∧ o ≤ 16383
  | .fill v => r.kind = 2 ∧ v = r.value
  | .trap v => r.kind = 3 ∧ v = r.value
  | .count => r.kind = 4

theorem handleOf_some {n : Nat} {h : Handle} (hn : handleOf n = some h) : n = h.val + 1 := by
  unfold handleOf at hn
  split at hn
  · next hr =>
    cases hn
    show n = n - 1 + 1
    omega
  · cases hn

theorem insertBody_of_body {r : InsertRequest} {b : EntryBody} (h : r.body = some b) : InsertBody r b := by
  unfold InsertRequest.body at h
  split at h
  · split at h
    · cases h
    · split at h
      · cases h
      · next hk _ k hseg ho =>
        cases h
        exact ⟨hk, handleOf_some hseg, rfl, by simpa [Config.maxOffset] using ho⟩
  · split at h
    · next hk => cases h; exact ⟨hk, rfl⟩
    · split at h
      · next hk => cases h; exact ⟨hk, rfl⟩
      · split at h
        · next hk => cases h; exact hk
        · cases h

/-- R75: every field of a request that gives an entry is in range, and the entry holds it. -/
structure EntryFields (r : InsertRequest) (e : Entry) : Prop where
  body : InsertBody r e.body
  applies : r.applies.toNat = e.applies.number
  base : r.base = e.base.toNat
  length : r.length = e.length
  lengthPos : 1 ≤ e.length
  lengthLe : e.length ≤ 4096
  top : e.base.toNat + e.length ≤ 0x80000
  hits : e.hits = 0

theorem entryFields_of_entry {r : InsertRequest} {e : Entry} (h : r.entry = some e) : EntryFields r e := by
  unfold InsertRequest.entry at h
  split at h
  · next b a hb ha =>
    split at h
    · next hr =>
      obtain ⟨hbase, hpos, hlen, htop⟩ := hr
      have hn : (BitVec.ofNat 19 r.base).toNat = r.base := by
        rw [BitVec.toNat_ofNat]
        exact Nat.mod_eq_of_lt hbase
      cases h
      exact ⟨insertBody_of_body hb, appliesOf_eq_some ha, hn.symm, rfl, hpos, hlen, hn.symm ▸ htop, rfl⟩
    · cases h
  · cases h

theorem entryAsked_of_entry {s : State} {e : Entry} (h : (insertRequest s).entry = some e) : EntryAsked s e := by
  obtain ⟨hbody, happlies, hbase, hlength, hpos, hle, htop, hhits⟩ := entryFields_of_entry h
  refine ⟨hbase, hlength, hpos, hle, htop, hhits, happlies, ?_⟩
  have hkind : ∀ n : Nat, n < 256 → (insertRequest s).kind = BitVec.ofNat 8 n → param1 s 5 = n := by
    intro n hn hk
    rw [param1, show param s 5 = BitVec.ofNat 8 n from hk, BitVec.toNat_ofNat]
    exact Nat.mod_eq_of_lt hn
  unfold InsertBody at hbody
  cases hb : e.body with
  | replace k o =>
    rw [hb] at hbody
    obtain ⟨hk, hseg, hoff, ho⟩ := hbody
    exact ⟨hkind 1 (by omega) hk, hseg, hoff, ho⟩
  | fill v =>
    rw [hb] at hbody
    exact ⟨hkind 2 (by omega) hbody.1, hbody.2⟩
  | trap v =>
    rw [hb] at hbody
    exact ⟨hkind 3 (by omega) hbody.1, hbody.2⟩
  | count =>
    rw [hb] at hbody
    exact hkind 4 (by omega) hbody

/-! ### What refuses an insert (R74 to R77) -/

section

variable {s : State} {r : InsertRequest} {e : Entry}

theorem insertAnswer_locked (hl : s.tables.stagedLock = true) : insertAnswer s r = .refused .stageLocked 0 := if_pos hl

theorem insertAnswer_badParam (hl : s.tables.stagedLock = false) (he : r.entry = none) :
    insertAnswer s r = .refused .badParam 0 := by
  rw [insertAnswer, if_neg (by simp [hl]), he]

theorem insertAnswer_segment {c : ResultCode} (hl : s.tables.stagedLock = false) (he : r.entry = some e)
    (hc : segmentRefusal s e = some c) : insertAnswer s r = .refused c 0 := by
  rw [insertAnswer, if_neg (by simp [hl]), he]
  dsimp only
  rw [hc]

theorem segmentRefusal_wrongState {h : Handle} {o : Nat} (hb : e.body = .replace h o)
    (hs : ∀ r d, s.segment h ≠ .sealed r d) : segmentRefusal s e = some .wrongState := by
  unfold segmentRefusal
  rw [hb]
  dsimp only
  cases hg : s.segment h with
  | sealed r d => exact absurd hg (hs r d)
  | _ => rfl

theorem segmentRefusal_range {h : Handle} {o : Nat} {q : Run} {d : SealData} (hb : e.body = .replace h o)
    (hs : s.segment h = .sealed q d) (hd : d.length < o + e.length) : segmentRefusal s e = some .range := by
  unfold segmentRefusal
  rw [hb]
  dsimp only
  rw [hs]
  exact if_pos hd

theorem insertAnswer_full (hl : s.tables.stagedLock = false) (he : r.entry = some e) (hs : SegmentReady s e)
    (hn : 32 ≤ s.tables.staged.length) : insertAnswer s r = .refused .tableFull 0 := by
  rw [insertAnswer, if_neg (by simp [hl]), he]
  dsimp only
  rw [segmentRefusal_none hs]
  exact if_pos hn

theorem overlapIndex_some {es : List Entry} {i : Nat} {f : Entry} (hi : es[i]? = some f) (hf : SharesAddress e f)
    (hl : ∀ j < i, ∀ g, es[j]? = some g → ¬ SharesAddress e g) : overlapIndex es e = some i := by
  obtain ⟨hlt, rfl⟩ := List.getElem?_eq_some_iff.mp hi
  refine List.findIdx?_eq_some_iff_getElem.mpr ⟨hlt, (overlaps_iff _ _).mpr hf, fun j hj ho => ?_⟩
  exact hl j hj _ (List.getElem?_eq_getElem (hj.trans hlt)) ((overlaps_iff _ _).mp ho)

theorem insertAnswer_overlap {i : Nat} (hl : s.tables.stagedLock = false) (he : r.entry = some e) (hs : SegmentReady s e)
    (hn : s.tables.staged.length < 32) (hi : overlapIndex s.tables.staged e = some i) :
    insertAnswer s r = .refused .overlap i := by
  rw [insertAnswer, if_neg (by simp [hl]), he]
  dsimp only
  rw [segmentRefusal_none hs]
  dsimp only
  rw [if_neg (show ¬ s.tables.staged.length ≥ Config.tableEntries by rw [Config.tableEntries]; omega), hi]

theorem stgInsertOwner_refused {c : ResultCode} {n : Nat} (h : insertAnswer s (insertRequest s) = .refused c n) :
    stgInsertOwner s = s.answer c [byte n, byte s.tables.staged.length] := by rw [stgInsertOwner, h]

end

/-- Settles O25: the checks in the order of the model. -/
theorem insertMakesItsChecksInOrder : Obligations.InsertMakesItsChecksInOrder := by
  intro s refused hs hrefused
  have hanswer : ∀ {c n}, insertAnswer s (insertRequest s) = .refused c n → refused c n := fun h =>
    (hrefused _ _).mpr (commanded hs (stgInsertOwner_refused h))
  refine ⟨fun hl => hanswer (insertAnswer_locked hl), fun hl => ⟨fun hnone => ?_, fun e he => ?_⟩⟩
  · refine hanswer (insertAnswer_badParam hl ?_)
    cases h : (insertRequest s).entry with
    | none => rfl
    | some e => exact absurd (entryAsked_of_entry h) (hnone e)
  · have hentry := insertRequest_entry he
    refine ⟨fun h o hb => ⟨fun hg => ?_, fun r d hg hd => ?_⟩, fun hready => ⟨fun hn => ?_, fun hn i f hi hf hlow => ?_⟩⟩
    · exact hanswer (insertAnswer_segment hl hentry (segmentRefusal_wrongState hb hg))
    · exact hanswer (insertAnswer_segment hl hentry (segmentRefusal_range hb hg hd))
    · exact hanswer (insertAnswer_full hl hentry hready hn)
    · exact hanswer (insertAnswer_overlap hl hentry hready hn (overlapIndex_some hi hf hlow))

theorem length_take_cons_drop {α : Type} (l : List α) (x : α) {p : Nat} (hp : p ≤ l.length) :
    (l.take p ++ x :: l.drop p).length = l.length + 1 := by
  simp only [List.length_append, List.length_take, List.length_cons, List.length_drop]
  omega

section

variable {s : State} {e : Entry} {i : Nat}

theorem stgInsertOwner_plain (h : insertAnswer s (insertRequest s) = .taken e i) (hi : i ≤ s.tables.staged.length)
    (hnone : e.segment? = none) :
    stgInsertOwner s = State.answer
      { s with tables := { s.tables with staged := s.tables.staged.take i ++ e :: s.tables.staged.drop i } } .ok
      [byte i, byte (s.tables.staged.length + 1), 0] := by
  rw [stgInsertOwner, h]
  dsimp only
  rw [(placeEntry_eq hi).1 hnone, entryReferences, hnone]
  dsimp only
  rw [length_take_cons_drop _ _ hi]
  rfl

theorem stgInsertOwner_replace {k : Handle} {r : Run} {d : SealData} (h : insertAnswer s (insertRequest s) = .taken e i)
    (hi : i ≤ s.tables.staged.length) (hk : e.segment? = some k) (hs : s.segment k = .sealed r d) :
    stgInsertOwner s = State.answer
      { s with
        tables := { s.tables with staged := s.tables.staged.take i ++ e :: s.tables.staged.drop i }
        mem := s.mem.withSegment k (.sealed r { d with references := d.references + 1 }) } .ok
      [byte i, byte (s.tables.staged.length + 1), byte (d.references + 1)] := by
  rw [stgInsertOwner, h]
  dsimp only
  rw [(placeEntry_eq hi).2 k r d hk hs, entryReferences, hk]
  dsimp only
  rw [length_take_cons_drop _ _ hi]
  simp [State.segment, PatchMemory.withSegment, Segment.references]

end

/-- Settles O26: the answer of an insert that is taken, with the entry placed. -/
theorem insertPlacesTheEntryInOrder : Obligations.InsertPlacesTheEntryInOrder := by
  rintro s e p hs hl he hready hn ho rfl
  have hp : s.tables.staged.countP (fun f => decide (f.base.toNat < e.base.toNat)) ≤ s.tables.staged.length :=
    List.countP_le_length
  have htaken := insertAnswer_taken hl (insertRequest_entry he) hready hn ho
  refine ⟨fun hnone => commanded hs (stgInsertOwner_plain htaken hp hnone), fun h o r d hb hg =>
    commanded hs (stgInsertOwner_replace htaken hp ?_ hg)⟩
  rw [Entry.segment?, hb]

/-! ### Removing an entry (R79, R80) -/

section

variable {s : State} {e : Entry} {i : Nat}

theorem removeEntry_eq (s : State) (e : Entry) (i : Nat) :
    s.removeEntry e i = { s with
      tables := { s.tables with staged := s.tables.staged.eraseIdx i }
      mem := memoryLowered s [e] } := by
  apply State.ext_blocks <;> simp [State.removeEntry, State.mem_dropEntry, State.setStaged]
  rfl

theorem baseIndex_none {es : List Entry} {base : Nat} (h : ∀ e ∈ es, e.base.toNat ≠ base) : baseIndex es base = none :=
  List.findIdx?_eq_none_iff.mpr fun e he => by simpa using h e he

/-- R9: in a table of the form a base names one entry. -/
theorem baseIndex_some {es : List Entry} {base : Nat} (hf : TableForm es) (hi : es[i]? = some e)
    (hb : e.base.toNat = base) : baseIndex es base = some i := by
  obtain ⟨-, hr, ho⟩ := hf
  obtain ⟨hlt, rfl⟩ := List.getElem?_eq_some_iff.mp hi
  refine List.findIdx?_eq_some_iff_getElem.mpr ⟨hlt, by simpa using hb, fun j hj he => ?_⟩
  have hlen : 1 ≤ es[j].length := (hr es[j] (List.getElem_mem _)).1
  have hle : es[j].base.toNat + es[j].length ≤ es[i].base.toNat :=
    List.pairwise_iff_getElem.mp ho j i (hj.trans hlt) hlt hj
  have heq : es[j].base.toNat = base := by simpa using he
  omega

theorem stgRemoveOwner_locked (hl : s.tables.stagedLock = true) :
    stgRemoveOwner s = s.answer .stageLocked [0, byte s.tables.staged.length] := if_pos hl

theorem stgRemoveOwner_badParam (hl : s.tables.stagedLock = false) (hb : 0x80000 ≤ param3 s 0 1 2) :
    stgRemoveOwner s = s.answer .badParam [0, byte s.tables.staged.length] := by
  rw [stgRemoveOwner, if_neg (by simp [hl])]
  exact if_pos hb

theorem stgRemoveOwner_notFound (hl : s.tables.stagedLock = false) (hb : param3 s 0 1 2 < 0x80000)
    (hn : ∀ e ∈ s.tables.staged, e.base.toNat ≠ param3 s 0 1 2) :
    stgRemoveOwner s = s.answer .notFound [0, byte s.tables.staged.length] := by
  rw [stgRemoveOwner, if_neg (by simp [hl]), if_neg (by simp only [Config.fetchTop]; omega), baseIndex_none hn]
  rfl

theorem stgRemoveOwner_found (hl : s.tables.stagedLock = false) (hb : param3 s 0 1 2 < 0x80000)
    (hi : baseIndex s.tables.staged (param3 s 0 1 2) = some i) (he : s.tables.staged[i]? = some e) :
    stgRemoveOwner s = (s.removeEntry e i).answer .ok
      [byte i, byte (s.removeEntry e i).tables.staged.length, byte e.body.kindCode, byte (entrySegmentNumber e),
        byte (entryReferences (s.removeEntry e i) e), byte (entrySegmentState (s.removeEntry e i) e)] := by
  rw [stgRemoveOwner, if_neg (by simp [hl]), if_neg (by simp only [Config.fetchTop]; omega), hi]
  dsimp only
  rw [he]

/-- R79, R181: what the answer of a removal reports of the entry and of its segment. -/
def removedBytes (s : State) (e : Entry) : List Byte :=
  match e.body with
  | .replace h _ => [1, byte (h.val + 1), byte ((s.segment h).lowered 1).references,
      byte ((s.segment h).lowered 1).stateCode]
  | .fill _ => [2, 0, 0, 0]
  | .trap _ => [3, 0, 0, 0]
  | .count => [4, 0, 0, 0]

theorem removedBytes_eq (s : State) (e : Entry) (i : Nat) :
    [byte e.body.kindCode, byte (entrySegmentNumber e), byte (entryReferences (s.removeEntry e i) e),
      byte (entrySegmentState (s.removeEntry e i) e)] = removedBytes s e := by
  have hseg : ∀ k, e.segment? = some k → (s.removeEntry e i).segment k = (s.segment k).lowered 1 := by
    intro k hk
    rw [State.removeEntry, State.segment_dropEntry, if_pos hk]
    rfl
  cases hb : e.body with
  | replace k o =>
    have hk : e.segment? = some k := by rw [Entry.segment?, hb]
    simp [removedBytes, hb, entrySegmentNumber, entryReferences, entrySegmentState, hk, hseg k hk, EntryBody.kindCode,
      handleNumber]
    rfl
  | _ =>
    have hk : e.segment? = none := by rw [Entry.segment?, hb]
    simp [removedBytes, hb, entrySegmentNumber, entryReferences, entrySegmentState, hk, EntryBody.kindCode]
    exact ⟨rfl, rfl⟩

theorem stgRemoveOwner_taken (hl : s.tables.stagedLock = false) (hf : TableForm s.tables.staged)
    (he : s.tables.staged[i]? = some e) (hb : e.base.toNat = param3 s 0 1 2) :
    stgRemoveOwner s = State.answer
      { s with
        tables := { s.tables with staged := s.tables.staged.eraseIdx i }
        mem := memoryLowered s [e] } .ok
      (byte i :: byte (s.tables.staged.length - 1) :: removedBytes s e) := by
  have hlt : i < s.tables.staged.length := (List.getElem?_eq_some_iff.mp he).1
  have hbase : param3 s 0 1 2 < 0x80000 := hb ▸ e.base.isLt
  rw [stgRemoveOwner_found hl hbase (baseIndex_some hf he hb) he, ← removedBytes_eq s e i, State.removeEntry_tables]
  dsimp only
  rw [List.length_eraseIdx_of_lt hlt, removeEntry_eq]

end

/-! ### Answers beside a change of patch memory -/

section

variable (s : State)

/-- R65: the end of an earlier data-port access comes to the same before a list of decrement claims as after it. -/
theorem memoryLowered_command (es : List Entry) (code : Byte) :
    memoryLowered ((windowBegun s).setCommand code) es = { memoryLowered s es with arbiter := s.mem.arbiter.idled } := rfl

theorem memoryExchanged_command (out into : List Entry) (code : Byte) :
    memoryExchanged ((windowBegun s).setCommand code) out into
      = { memoryExchanged s out into with arbiter := s.mem.arbiter.idled } := rfl

theorem answered_memory {m : PatchMemory} (harb : m.arbiter = s.mem.arbiter) (tb : TableStore) (code : Byte)
    (r : ResultCode) (bs : List Byte) :
    State.answer
        { (windowBegun s).setCommand code with tables := tb, mem := { m with arbiter := s.mem.arbiter.idled } } r bs
      = State.answered { s with tables := tb, mem := m } code r bs := by
  rw [← harb]
  rfl

theorem answered_lowered (es : List Entry) (tb : TableStore) (code : Byte) (r : ResultCode) (bs : List Byte) :
    State.answer
        { (windowBegun s).setCommand code with
          tables := tb, mem := memoryLowered ((windowBegun s).setCommand code) es } r bs
      = State.answered { s with tables := tb, mem := memoryLowered s es } code r bs := by
  rw [memoryLowered_command]
  exact answered_memory s (by simp only [memoryLowered]) tb code r bs

theorem answered_exchanged (out into : List Entry) (tb : TableStore) (code : Byte) (r : ResultCode) (bs : List Byte) :
    State.answer
        { (windowBegun s).setCommand code with
          tables := tb, mem := memoryExchanged ((windowBegun s).setCommand code) out into } r bs
      = State.answered { s with tables := tb, mem := memoryExchanged s out into } code r bs := by
  rw [memoryExchanged_command]
  exact answered_memory s (by simp only [memoryExchanged, memoryLowered]) tb code r bs

end

theorem exec_stgRemove_taken {s : State} {e : Entry} {i : Nat} (hs : Ready s) (hl : s.tables.stagedLock = false)
    (hf : TableForm s.tables.staged) (he : s.tables.staged[i]? = some e) (hb : e.base.toNat = param3 s 0 1 2) :
    exec .stgRemove s = .next (State.answered
      { s with
        tables := { s.tables with staged := s.tables.staged.eraseIdx i }
        mem := memoryLowered s [e] } 0x21 .ok
      (byte i :: byte (s.tables.staged.length - 1) :: removedBytes s e)) := by
  refine commanded hs ((stgRemoveOwner_taken (s := (windowBegun s).setCommand 0x21) hl hf he hb).trans ?_)
  exact answered_lowered ..

/-- Settles O27: the checks in their order, and the entry that has the base. -/
theorem removeTakesTheEntryWithTheBase : Obligations.RemoveTakesTheEntryWithTheBase := by
  refine fun s hs => ⟨fun hl => commanded hs (stgRemoveOwner_locked hl), fun hl =>
    ⟨fun hb => commanded hs (stgRemoveOwner_badParam hl hb), fun hb hn => commanded hs (stgRemoveOwner_notFound hl hb hn),
      fun i e hf he hb => ?_⟩⟩
  have h := exec_stgRemove_taken hs hl hf he hb
  cases hbody : e.body <;> simpa only [removedBytes, hbody] using h

/-! ### Emptying and copying (R81, R82) -/

theorem patchMemory_ext {a b : PatchMemory} (h1 : a.ram = b.ram) (h2 : a.segments = b.segments)
    (h3 : a.pointer = b.pointer) (h4 : a.writeLatch = b.writeLatch) (h5 : a.readLatch = b.readLatch)
    (h6 : a.dataReject = b.dataReject) (h7 : a.crcJob = b.crcJob) (h8 : a.arbiter = b.arbiter) : a = b := by
  cases a
  cases b
  simp_all

theorem copyLive_segments (s : State) :
    s.copyLive.mem.segments
      = Vector.ofFn fun h =>
          ((s.segment h).lowered (namedBy s.tables.staged h)).raised (namedBy s.tables.live.entries h) := by
  apply segments_ext
  intro k
  have hk := State.segment_addEntries (s.clearStaged.setStaged (s.tables.live.entries.map Entry.unhit))
    s.tables.live.entries k
  have hl : s.clearStaged.segment k = (s.segment k).lowered (namedBy s.tables.staged k) := by
    simp [State.segment, State.clearStaged_eq, memoryLowered, loweredBy]
  rw [show (s.clearStaged.setStaged (s.tables.live.entries.map Entry.unhit)).segment k = s.clearStaged.segment k from rfl,
    hl] at hk
  simpa [State.segment, State.copyLive] using hk

/-- R82: the decrement claims of STAGED come before the increment claims of the copies. -/
theorem copyLive_mem (s : State) : s.copyLive.mem = memoryExchanged s s.tables.staged s.tables.live.entries := by
  have hmem : s.clearStaged.mem = memoryLowered s s.tables.staged := by rw [State.clearStaged_eq]
  refine patchMemory_ext ?_ (copyLive_segments s) ?_ ?_ ?_ ?_ ?_ ?_ <;>
    simp only [State.copyLive, State.addEntries_ram, State.addEntries_pointer, State.addEntries_writeLatch,
      State.addEntries_readLatch, State.addEntries_dataReject, State.addEntries_crcJob, State.addEntries_arbiter,
      State.setStaged, hmem, memoryExchanged]

theorem copyLive_eq (s : State) :
    s.copyLive = { s with
      tables := { s.tables with staged := s.tables.live.entries.map Entry.unhit }
      mem := memoryExchanged s s.tables.staged s.tables.live.entries } := by
  apply State.ext_blocks
  case h3 => exact copyLive_mem s
  all_goals simp [State.copyLive, State.setStaged]

section

variable {s : State}

theorem stgClearOwner_locked (hl : s.tables.stagedLock = true) : stgClearOwner s = s.answer .stageLocked [] := if_pos hl

theorem stgClearOwner_taken (hl : s.tables.stagedLock = false) :
    stgClearOwner s = State.answer
      { s with tables := { s.tables with staged := [] }, mem := memoryLowered s s.tables.staged } .ok
      [byte s.tables.staged.length, byte (s.tables.staged.countP fun e => e.segment?.isSome)] := by
  rw [stgClearOwner, if_neg (by simp [hl]), State.clearStaged_eq, replaceCount]

theorem stgCopyLiveOwner_locked (hl : s.tables.stagedLock = true) : stgCopyLiveOwner s = s.answer .stageLocked [] :=
  if_pos hl

theorem stgCopyLiveOwner_taken (hl : s.tables.stagedLock = false) :
    stgCopyLiveOwner s = State.answer
      { s with
        tables := { s.tables with staged := s.tables.live.entries.map Entry.unhit }
        mem := memoryExchanged s s.tables.staged s.tables.live.entries } .ok
      (byte s.tables.live.entries.length :: byte s.tables.staged.length :: bytes2 s.tables.live.generation.toNat) := by
  rw [stgCopyLiveOwner, if_neg (by simp [hl]), copyLive_eq]

end

/-- Settles O28: each command, refused by the lock or taken. -/
theorem clearAndCopyLiveReplaceStaged : Obligations.ClearAndCopyLiveReplaceStaged := by
  refine ⟨fun s hs => ⟨fun hl => commanded hs (stgClearOwner_locked hl), fun hl => ?_⟩,
    fun s hs => ⟨fun hl => commanded hs (stgCopyLiveOwner_locked hl), fun hl => ?_⟩⟩
  · refine commanded hs ((stgClearOwner_taken (s := (windowBegun s).setCommand 0x22) hl).trans ?_)
    exact answered_lowered ..
  · refine commanded hs ((stgCopyLiveOwner_taken (s := (windowBegun s).setCommand 0x23) hl).trans ?_)
    exact answered_exchanged ..

/-! ### Reading a table and clearing counts (R18, R33) -/

/-- One of the commands that are answered while the loader runs, with what its owner leaves. -/
theorem reported {s : State} (h : Unheld s) {code : Byte} {owner : State → State} {t : State}
    (ho : owner ((windowBegun s).setCommand code) = t) : commandEvent code true owner s = .next t := by
  rw [commandEvent_unheld h, ho]

section

variable {s : State}

theorem tblReadOwner_badParam (h : 2 < param1 s 0) : tblReadOwner s = s.answer .badParam [] := by
  rw [tblReadOwner, selectedTable, if_neg (by omega), if_neg (by omega), if_neg (by omega)]

theorem tblReadOwner_taken {es : List Entry} (h : (param1 s 0 = 0 ∧ es = s.tables.staged)
      ∨ (param1 s 0 = 1 ∧ es = s.tables.live.entries) ∨ (param1 s 0 = 2 ∧ es = s.tables.priorEntries)) :
    tblReadOwner s = s.answer .ok (readBytes es (param1 s 1)) := by
  rw [tblReadOwner, selectedTable]
  rcases h with ⟨h, rfl⟩ | ⟨h, rfl⟩ | ⟨h, rfl⟩ <;> rw [h] <;> rfl

theorem cntClearOwner_one (h : param1 s 0 = 0) :
    cntClearOwner s = (s.setLiveEntries (s.tables.live.entries.modify (param1 s 1) Entry.unhit)).answer .ok
      (clearBytes s (if param1 s 1 < s.tables.live.entries.length then 1 else 0)) := if_pos h

theorem cntClearOwner_all (h : param1 s 0 = 1) :
    cntClearOwner s = (s.setLiveEntries (s.tables.live.entries.map Entry.unhit)).answer .ok
      (clearBytes s s.tables.live.entries.length) := by
  rw [cntClearOwner, if_neg (by omega), if_pos h]

theorem cntClearOwner_badParam (h : 2 ≤ param1 s 0) : cntClearOwner s = s.answer .badParam [] := by
  rw [cntClearOwner, if_neg (by omega), if_neg (by omega)]

end

/-- Settles O29: the selector, then the index. -/
theorem tableReadAnswersOneEntry : Obligations.TableReadAnswersOneEntry := by
  refine fun s hs => ⟨fun h => reported hs (tblReadOwner_badParam h), fun es hes => ⟨fun hi => ?_, fun e he => ?_⟩⟩
  · refine reported hs ((tblReadOwner_taken (s := (windowBegun s).setCommand 0x24) hes).trans ?_)
    rw [readBytes, show es[param1 ((windowBegun s).setCommand 0x24) 1]? = none from List.getElem?_eq_none hi]
    rfl
  · refine reported hs ((tblReadOwner_taken (s := (windowBegun s).setCommand 0x24) hes).trans ?_)
    rw [readBytes, show es[param1 ((windowBegun s).setCommand 0x24) 1]? = some e from he, Nat.add_comm es.length]
    obtain ⟨base, length, applies, body, hits⟩ := e
    cases body <;> rfl

/-- Settles O30: one count, all of them, or a selector that names neither. -/
theorem countClearActsOnLive : Obligations.CountClearActsOnLive := by
  refine fun s hs => ⟨fun h => ?_, fun h => commanded hs (cntClearOwner_all h), fun h =>
    commanded hs (cntClearOwner_badParam h)⟩
  refine commanded hs ((cntClearOwner_one (s := (windowBegun s).setCommand 0x30) h).trans ?_)
  have hbyte : byte (if param1 s 1 < s.tables.live.entries.length then 1 else 0)
      = if param1 s 1 < s.tables.live.entries.length then 1 else 0 := by split <;> rfl
  rw [← hbyte]
  rfl

/-! ### The number of a new generation (R12) -/

theorem toNat_nextNumber (g : Generation) :
    (nextNumber g).toNat = if g.toNat = 65535 then 1 else g.toNat + 1 := by
  unfold nextNumber
  by_cases h : g = 0xFFFF
  · rw [if_pos h, h]
    rfl
  · have hne : g.toNat ≠ 65535 := fun e => h (BitVec.eq_of_toNat_eq e)
    rw [if_neg h, if_neg hne]
    have := g.isLt
    rw [BitVec.toNat_add]
    exact Nat.mod_eq_of_lt (by show g.toNat + 1 < 65536; omega)

/-- Settles O31: the number after the counter, or the one after that. -/
theorem aSwitchNumbersTheNewGeneration : Obligations.ASwitchNumbersTheNewGeneration := by
  refine fun counter live => ⟨?_, switchNumber_ne_zero _ _, switchNumber_ne_live _ _⟩
  unfold switchNumber numberGiven
  dsimp only
  by_cases h : nextNumber counter = live
  · have he := congrArg BitVec.toNat h
    rw [toNat_nextNumber] at he
    rw [if_pos h, if_pos he, toNat_nextNumber, toNat_nextNumber]
  · have hne : (nextNumber counter).toNat ≠ live.toNat := fun e => h (BitVec.eq_of_toNat_eq e)
    rw [toNat_nextNumber] at hne
    rw [if_neg h, if_neg hne, toNat_nextNumber]

end Sys2Proof.Proofs
end

section
/-! PROOF. The statements about generations and probation (R88 to R93, R97 to R102, R104, R110 to R115, R175, R183): the
generation commands by the state they find, the movements, and the tick. -/

namespace Sys2Proof.Proofs

open Sys2Proof Sys2Proof.Machine

/-! ### A decision at fetch idle -/

theorem acceptable_isSome {s : State} (hx : s.pins.xrst = false) (h : ¬ NoAcceptance s) : (acceptable s).isSome = true := by
  simp only [NoAcceptance, not_or, Bool.not_eq_true] at h
  obtain ⟨hr, hs, ht⟩ := h
  obtain ⟨p, hp⟩ := Option.ne_none_iff_exists'.mp hs
  rw [acceptable_some hx ht (by simpa using hr) hp]
  rfl

/-- A request in progress, or a presentation that could be accepted, leaves a movement to its own event (log 1). -/
theorem settle_stays {s t : State} (hx : s.pins.xrst = false) (h : s.fetch.request.isSome = true ∨ ¬ NoAcceptance s)
    (hf : t.fetch = s.fetch) (hp : t.pins = s.pins) : t.settle = t := by
  rcases h with h | h
  · exact settle_busy (by rw [hf]; exact h)
  · refine settle_contends ?_
    have hsome := acceptable_isSome hx h
    unfold acceptable at hsome ⊢
    rw [hf, hp]
    exact hsome

/-! ### COMMIT (R88, R89) -/

theorem commitAsked_of_request {s : State} {c : PendingCommit} (h : commitRequest s = some c) : CommitAsked s c := by
  unfold commitRequest at h
  split at h
  · next m t hm ht =>
    cases h
    refine ⟨rfl, ?_, ?_⟩
    · unfold commitTolerance at ht
      split at ht
      · cases ht
        rfl
      · cases ht
    · unfold commitMode at hm
      split at hm
      · cases hm
        assumption
      · split at hm
        · split at hm
          · next h2 hlt =>
            cases hm
            refine ⟨h2, ?_⟩
            rw [BitVec.toNat_ofNat]
            exact (Nat.mod_eq_of_lt hlt).symm
          · cases hm
        · split at hm
          · cases hm
            assumption
          · cases hm
  · cases h

section

variable {s : State}

theorem commitOwner_pending {c : PendingCommit} (hg : s.gen.state = .commitPending c) :
    commitOwner s = s.answer .commitPending [1] := by
  simp only [commitOwner, stateBytes, hg]
  rfl

theorem commitOwner_probation (hg : s.gen.state = .probation) : commitOwner s = s.answer .inProbation [2] := by
  simp only [commitOwner, stateBytes, hg]
  rfl

theorem commitOwner_waiting {o : RevertOrigin} (hg : s.gen.state = .revertWaiting o) :
    commitOwner s = s.answer .busy [3] := by
  simp only [commitOwner, stateBytes, hg]
  rfl

theorem commitOwner_badParam (hg : s.gen.state = .steady) (hc : ∀ c, ¬ CommitAsked s c) :
    commitOwner s = s.answer .badParam [0] := by
  have hnone : commitRequest s = none := by
    cases h : commitRequest s with
    | none => rfl
    | some c => exact absurd (commitAsked_of_request h) (hc c)
  unfold commitOwner
  rw [hg]
  dsimp only
  rw [hnone, stateBytes, hg]
  rfl

theorem commitOwner_taken {c : PendingCommit} (hg : s.gen.state = .steady) (hc : CommitAsked s c) :
    commitOwner s = ((commitRecorded s c).answer .ok (commitBytes s c.mode)).settle := by
  unfold commitOwner
  rw [hg]
  dsimp only
  rw [commitRequest_some hc]
  rfl

end

/-- Settles O32: the refusals by the state, and the commit that waits or is switched within the command. -/
theorem commitLocksStagedAndWaitsForItsMoment : Obligations.CommitLocksStagedAndWaitsForItsMoment := by
  refine ⟨fun s hs => ⟨fun c hg => commanded hs (commitOwner_pending hg), fun hg => commanded hs (commitOwner_probation hg),
    fun o hg => commanded hs (commitOwner_waiting hg), fun hg hc => commanded hs (commitOwner_badParam hg hc)⟩, ?_⟩
  rintro s c n recorded hs hg hc rfl hrec
  have hexec : exec .commit s = .next recorded.settle := by
    rw [hrec]
    exact commanded hs (commitOwner_taken hg hc)
  have hfetch : recorded.fetch = s.fetch := by rw [hrec]; rfl
  have hpins : recorded.pins = s.pins := by rw [hrec]; rfl
  have hstate : recorded.gen.state = .commitPending c := by rw [hrec]; rfl
  have hnumber : switchNumber recorded.gen.counter recorded.tables.live.generation
      = switchNumber s.gen.counter s.tables.live.generation := by rw [hrec]; rfl
  rw [hexec]
  refine ⟨fun h => ?_, fun hm hr hn => ?_⟩
  · rcases h with h | h | h
    · rw [settle_stays hs.1 (.inl h) hfetch hpins]
    · rw [settle_stays hs.1 (.inr h) hfetch hpins]
    · rw [settle_quiet (by simp [movementWaits, hstate, h])]
  · rw [settle_moves (by rw [hfetch]; exact hr) (movementWaits_now hstate hm) (acceptable_none hn hfetch hpins),
      takeMovement_now hstate hm, hnumber]

/-! ### SWITCH and REVERT_TAKEN (R90, R91, R102) -/

section

variable {s : State}

theorem exec_switch_idle (hx : s.pins.xrst = false) (hd : switchDue s = false)
    (hm : s.fetch.request.isSome = true ∨ ∀ c, s.gen.state = .commitPending c → c.mode ≠ .now) :
    exec .switch s = .next s := by
  cases hg : s.gen.state with
  | commitPending c =>
    have hmove : s.moveFirst = s := by
      rcases hm with h | h
      · simp [State.moveFirst, h]
      · simp [State.moveFirst, movementWaits, hg, h c hg]
    simp [exec, execSwitch, outOfReset, hx, hg, hd, hmove]
  | _ => simp [exec, execSwitch, outOfReset, hx, hg]

theorem acceptable_none_of_request (h : s.fetch.request.isSome = true) : acceptable s = none := by
  simp [acceptable, h]

theorem acceptable_standing {p : Presentation} (h : acceptable s = some p) :
    s.pins.trst = false ∧ s.fetch.standing = some p := by
  unfold acceptable at h
  split at h
  · cases h
  · next hn =>
    simp only [Bool.or_eq_true, not_or, Bool.not_eq_true] at hn
    exact ⟨hn.1.2, h⟩

theorem exec_revertTaken_idle (hx : s.pins.xrst = false)
    (h : s.fetch.request.isSome = true ∨ ∀ o, s.gen.state ≠ .revertWaiting o) : exec .revertTaken s = .next s := by
  cases hg : s.gen.state with
  | revertWaiting o =>
    rcases h with h | h
    · rw [exec_revertTaken hx hg]
      simp [State.moveFirst, h]
    · exact absurd hg (h o)
  | _ => simp [exec, execRevertTaken, outOfReset, hx, hg]

theorem exec_revertTaken_now {o : RevertOrigin} {p : NumberedTable} (hx : s.pins.xrst = false)
    (hg : s.gen.state = .revertWaiting o) (hp : s.tables.prior = some p) (hr : s.fetch.request = none) :
    exec .revertTaken s = .next (revertedState s p o) := by
  rw [exec_revertTaken hx hg, moveFirst_moves hr (movementWaits_revert hg), takeMovement_revert hg hp]

end

/-- Settles O33: each movement at its own event, and the moments at which it is none. -/
theorem switchAndRevertMoveTheTables : Obligations.SwitchAndRevertMoveTheTables := by
  refine ⟨fun s hx => ⟨?_, fun c a p hg hm hr ht hs hp => ?_, fun h => ?_⟩,
    fun s hx => ⟨fun p hp hr => ⟨fun hg => exec_revertTaken_now hx hg hp hr, fun hg => ?_⟩,
      exec_revertTaken_idle hx⟩⟩
  · rintro c n hg hr hm rfl
    exact exec_switch_now hx hr hg hm
  · rw [exec_fetchAccept hx ht hr hs, exec_switch_due hx ht hr hs hg hm hp]
  · rcases h with h | h
    · exact exec_switch_idle hx (switchDue_none (acceptable_none_of_request h)) (.inl h)
    · cases hg : s.gen.state with
      | commitPending c =>
        obtain ⟨hm, hno⟩ := h c hg
        refine exec_switch_idle hx ?_ (.inr fun d hd => (h d hd).1)
        cases ha : acceptable s with
        | none => exact switchDue_none ha
        | some p =>
          obtain ⟨ht, hs⟩ := acceptable_standing ha
          rw [switchDue_eq ha]
          rcases hno p hs with h1 | h1
          · rw [ht] at h1
            cases h1
          · exact switchMet_none h1 rfl
      | _ => simp [exec, execSwitch, outOfReset, hx, hg]
  · rcases hg with hg | hg <;> exact exec_revertTaken_now hx hg hp hr

/-! ### COMMIT_ABORT (R97, R98) -/

section

variable {s : State}

theorem commitAbortOwner_taken {c : PendingCommit} (hg : s.gen.state = .commitPending c) :
    commitAbortOwner s
      = ((s.setLock false).setGenState .steady).answer .ok [byte c.mode.code, byte s.tables.staged.length] := by
  simp only [commitAbortOwner, hg]

theorem commitAbortOwner_steady (hg : s.gen.state = .steady) : commitAbortOwner s = s.answer .nonePending [0] := by
  simp only [commitAbortOwner, stateBytes, hg]
  rfl

theorem commitAbortOwner_probation (hg : s.gen.state = .probation) : commitAbortOwner s = s.answer .nonePending [2] := by
  simp only [commitAbortOwner, stateBytes, hg]
  rfl

theorem commitAbortOwner_waiting {o : RevertOrigin} (hg : s.gen.state = .revertWaiting o) :
    commitAbortOwner s = s.answer .nonePending [3] := by
  simp only [commitAbortOwner, stateBytes, hg]
  rfl

end

/-- Settles O34: by the state, and the acceptance that is then left. -/
theorem commitAbortUnlocksStaged : Obligations.CommitAbortUnlocksStaged := by
  refine fun s hs => ⟨fun c aborted hg ha => ⟨?_, fun p ht hr hp => ?_⟩, fun hg => commanded hs (commitAbortOwner_steady hg),
    fun hg => commanded hs (commitAbortOwner_probation hg), fun o hg => commanded hs (commitAbortOwner_waiting hg)⟩
  · rw [ha]
    exact commanded hs (commitAbortOwner_taken hg)
  · have hpins : aborted.pins = s.pins := by rw [ha]; rfl
    have hfetch : aborted.fetch = s.fetch := by rw [ha]; rfl
    have hsteady : aborted.gen.state = .steady := by rw [ha]; rfl
    rw [exec_fetchAccept (p := p) (by rw [hpins]; exact hs.1) (by rw [hpins]; exact ht) (by rw [hfetch]; exact hr)
      (by rw [hfetch]; exact hp), accept_begun (noSwitchAt_unpending (by rw [hsteady]; nofun))]

/-! ### REVERT (R100, R101) -/

section

variable {s : State} {p : NumberedTable}

theorem revertOwner_noPrior (hp : s.tables.prior = none) :
    revertOwner s = s.answer .noPrior [byte s.gen.state.code] := by
  rw [revertOwner, if_pos (by rw [hp]; rfl), stateBytes]

theorem revertOwner_pending {c : PendingCommit} (hp : s.tables.prior = some p) (hg : s.gen.state = .commitPending c) :
    revertOwner s = s.answer .commitPending [1] := by
  simp only [revertOwner, stateBytes, hg, hp, Option.isNone_some, Bool.false_eq_true, if_false]
  rfl

theorem revertOwner_waiting {o : RevertOrigin} (hp : s.tables.prior = some p) (hg : s.gen.state = .revertWaiting o) :
    revertOwner s = s.answer .busy [3] := by
  simp only [revertOwner, stateBytes, hg, hp, Option.isNone_some, Bool.false_eq_true, if_false]
  rfl

theorem revertOwner_taken {o : LastOutcome} (hp : s.tables.prior = some p)
    (h : (s.gen.state = .steady ∧ o = s.gen.lastOutcome) ∨ (s.gen.state = .probation ∧ o = .manualReverted)) :
    revertOwner s = (s.holdRevert o).settle := by
  rcases h with ⟨hg, rfl⟩ | ⟨hg, rfl⟩ <;>
    simp only [revertOwner, hg, hp, Option.isNone_some, Bool.false_eq_true, if_false]

end

/-- Settles O35: the refusals in order, and the revert that waits or is taken within the command. -/
theorem revertExchangesLiveAndPrior : Obligations.RevertExchangesLiveAndPrior := by
  refine fun s hs => ⟨fun hp => commanded hs (revertOwner_noPrior hp), fun p hp =>
    ⟨fun c hg => commanded hs (revertOwner_pending (by exact hp) hg),
      fun o hg => commanded hs (revertOwner_waiting (by exact hp) hg), fun outcome ho => ?_⟩⟩
  have hexec : exec .revert s = .next (((windowBegun s).setCommand 0x42).holdRevert outcome).settle :=
    commanded hs (revertOwner_taken (by exact hp) ho)
  rw [hexec]
  refine ⟨fun h => ?_, fun hr hn => ?_⟩
  · rw [settle_stays (s := s) hs.1 h (by rfl) (by rfl)]
    rfl
  · rw [settle_moves (by exact hr) (movementWaits_revert (o := .manual) (by rfl)) (acceptable_none hn (by rfl) (by rfl)),
      takeMovement_revert (o := .manual) (p := p) (by rfl) (by exact hp)]
    rfl

/-! ### CONFIRM, GEN_STATUS and LDR_STATUS (R104, R114, R115, R175) -/

section

variable {s : State}

theorem confirmOwner_taken (hg : s.gen.state = .probation) :
    confirmOwner s
      = State.answer { s with gen := { s.gen with state := .steady, lastOutcome := .confirmed } } .ok (confirmBytes s) := by
  simp only [confirmOwner, hg]

theorem confirmOwner_refused (hg : s.gen.state ≠ .probation) : confirmOwner s = s.refuseConfirm := by
  cases h : s.gen.state with
  | probation => exact absurd h hg
  | _ => simp only [confirmOwner, h]

theorem refuseConfirm_late (h : s.gen.lastOutcome = .expiredReverted ∨ s.gen.lastOutcome = .resetsReverted) :
    s.refuseConfirm = s.answer .late [byte s.gen.state.code, byte s.gen.lastOutcome.code] := by
  rcases h with h | h <;> simp [State.refuseConfirm, h, LastOutcome.failedTrial]

theorem refuseConfirm_wrongState (h1 : s.gen.lastOutcome ≠ .expiredReverted) (h2 : s.gen.lastOutcome ≠ .resetsReverted) :
    s.refuseConfirm = s.answer .wrongState [byte s.gen.state.code, byte s.gen.lastOutcome.code] := by
  cases h : s.gen.lastOutcome with
  | expiredReverted => exact absurd h h1
  | resetsReverted => exact absurd h h2
  | _ => simp [State.refuseConfirm, h, LastOutcome.failedTrial]

end

/-- Settles O36: in PROBATION, and outside it by the last outcome. -/
theorem confirmEndsTheTrial : Obligations.ConfirmEndsTheTrial := by
  refine fun s hs => ⟨fun hg => commanded hs (confirmOwner_taken hg), fun hg => ⟨fun ho => ?_, fun h1 h2 => ?_⟩⟩
  · exact commanded hs ((confirmOwner_refused (s := (windowBegun s).setCommand 0x43) hg).trans (refuseConfirm_late ho))
  · exact commanded hs
      ((confirmOwner_refused (s := (windowBegun s).setCommand 0x43) hg).trans (refuseConfirm_wrongState h1 h2))

theorem originCode_eq {g : GenState} {n : Nat} (h1 : ∀ o, g = .revertWaiting o → n = o.code)
    (h0 : (∀ o, g ≠ .revertWaiting o) → n = 0) : g.originCode = n := by
  cases g with
  | revertWaiting o => exact (h1 o rfl).symm
  | _ => exact (h0 (by nofun)).symm

theorem priorNumber_eq {t : TableStore} {n : Nat} (h1 : ∀ p, t.prior = some p → n = p.generation.toNat)
    (h0 : t.prior = none → n = 0) : t.priorNumber.toNat = n := by
  unfold TableStore.priorNumber
  cases h : t.prior with
  | none => exact (h0 h).symm
  | some p => exact (h1 p h).symm

theorem pendingField_eq {g : GenState} {pending trial : Nat}
    (h1 : ∀ c, g = .commitPending c →
      pending = c.mode.address.toNat + 2 ^ 19 * c.tolerance.val + 2 ^ 22 * c.mode.code ∧ trial = c.probation.toNat)
    (h0 : (∀ c, g ≠ .commitPending c) → pending = 0 ∧ trial = 0) :
    pendingField g.pendingCommit = pending ∧ pendingProbation g.pendingCommit = trial := by
  cases g with
  | commitPending c =>
    obtain ⟨rfl, rfl⟩ := h1 c rfl
    exact ⟨rfl, rfl⟩
  | _ =>
    obtain ⟨rfl, rfl⟩ := h0 (by nofun)
    exact ⟨rfl, rfl⟩

/-- Settles O37: the packed fields of the two reports. -/
theorem statusCommandsReportWhatStands : Obligations.StatusCommandsReportWhatStands := by
  refine ⟨fun s origin priorNumber pending trial hs ho1 ho0 hp1 hp0 hc1 hc0 => ?_, fun s committed hs h1 h0 => ?_⟩
  · obtain ⟨hpending, htrial⟩ := pendingField_eq hc1 hc0
    rw [← originCode_eq ho1 ho0, ← priorNumber_eq hp1 hp0, ← hpending, ← htrial]
    exact reported hs (by rfl)
  · have hcommitted : ((s.loader.outcome.committed.map (·.toNat)).getD 0) = committed := by
      cases h : s.loader.outcome.committed with
      | none => exact (h0 h).symm
      | some g => exact (h1 g h).symm
    have htrial : byte s.loader.outcome.probation.toNat = if s.loader.outcome.probation then 1 else 0 := by
      cases s.loader.outcome.probation <;> rfl
    rw [← hcommitted, loaderReport, ← htrial]
    exact reported hs (by rfl)

/-! ### The tick (R110, R111) -/

section

variable {s : State}

theorem expiryDue_iff : expiryDue s = true ↔ s.gen.state = .probation ∧ s.gen.timer = 1 := by
  simp [expiryDue]

theorem tick_quiet (hg : s.gen.state ≠ .probation) : s.tick = { s with divider := 0 } := by
  have hd : expiryDue s = false := by simp [expiryDue, hg]
  rw [State.tick, hd]
  cases h : s.gen.state with
  | probation => exact absurd h hg
  | _ => simp [State.tickTrial, h]

theorem tick_lowers (hg : s.gen.state = .probation) (ht : 2 ≤ s.gen.timer.toNat) :
    s.tick = { s with divider := 0, gen := { s.gen with timer := s.gen.timer - 1 } } := by
  have h1 : s.gen.timer ≠ 1#16 := fun e => by rw [e] at ht; exact absurd ht (by decide)
  have h0 : s.gen.timer ≠ 0#16 := fun e => by rw [e] at ht; exact absurd ht (by decide)
  have hd : expiryDue s = false := by simp [expiryDue, h1]
  simp [State.tick, hd, State.tickTrial, hg, h1, h0]

theorem tick_expires (hg : s.gen.state = .probation) (ht : s.gen.timer = 1) :
    s.tick = (({ s with divider := 0 } : State).decideExpiry).settle := by
  have hd : expiryDue s = true := expiryDue_iff.mpr ⟨hg, ht⟩
  simp [State.tick, hd, State.tickTrial, hg, ht]

theorem exec_probationExpiry (hx : s.pins.xrst = false) :
    exec .probationExpiry s = .next (if expiryDue s then s.tick else s) := outOfReset_eq hx _

end

/-- Settles O38: a tick outside PROBATION, one that lowers the timer, and the one that decides the expiry. -/
theorem aTickLowersTheProbationTimer : Obligations.ATickLowersTheProbationTimer := by
  refine fun s hx => ⟨fun hg => ?_, fun hg ht => ?_, fun hg ht c hc => ?_, fun h => ?_⟩
  · rw [exec_msTick hx, tick_quiet hg]
  · rw [exec_msTick hx, tick_lowers hg ht]
  · have hexec : exec c s = .next s.tick := by
      rcases hc with rfl | rfl
      · exact exec_msTick hx
      · rw [exec_probationExpiry hx, if_pos (expiryDue_iff.mpr ⟨hg, ht⟩)]
    rw [hexec, tick_expires hg ht]
    refine ⟨fun h => ?_, fun p hp hr hn => ?_⟩
    · rw [settle_stays (s := s) hx h (by rfl) (by rfl)]
      rfl
    · rw [settle_moves (by exact hr) (movementWaits_revert (o := .expiry) (by rfl)) (acceptable_none hn (by rfl) (by rfl)),
        takeMovement_revert (o := .expiry) (p := p) (by rfl) (by exact hp)]
      rfl
  · rw [exec_probationExpiry hx, if_neg]
    rw [expiryDue_iff]
    rintro ⟨hg, ht⟩
    rcases h with h | h
    · exact h hg
    · exact h ht

end Sys2Proof.Proofs
end

section
/-! PROOF. The statements about the event log's commands, the command unit and the register window (R57, R131, R133, R136 to
R147, R179, R180, R184, R186): a row of CMD is its owner's command event, and what stands at each offset. -/

namespace Sys2Proof.Proofs

open Sys2Proof Sys2Proof.Machine

/-! ### LOG_POP and LOG_CLEAR (R131, R133) -/

section

variable {s : State}

theorem logPopOwner_empty (h : s.log.records = []) :
    logPopOwner s = s.answer .logEmpty (List.replicate 13 0 ++ bytes2 s.log.nextSequence.toNat) := by
  rw [logPopOwner, h]

theorem logPopOwner_taken {r : LogRecord} {rest : List LogRecord} (h : s.log.records = r :: rest) :
    logPopOwner s = (s.setRecords rest).answer .ok
      (r.layout ++ [byte rest.length] ++ bytes2 s.log.nextSequence.toNat) := by
  rw [logPopOwner, h]

/-- R184: a TRAP record has no written word. -/
theorem layout_trap {r : LogRecord} {k : FetchKind} (h : r.body = .trap k) :
    r.layout = bytes2 r.sequence.toNat ++ [1, byte (fetchKindCode k)] ++ bytes3 r.address.toNat ++ [byte r.entryIndex]
      ++ bytes2 r.generation.toNat ++ [0, 0] := by
  have hword : bytes2 (RecordBody.trap k).word.toNat = [0, 0] := by cases k <;> decide
  rw [LogRecord.layout, h, hword]
  rfl

theorem layout_shadow {r : LogRecord} {w : Word} (h : r.body = .shadow w) :
    r.layout = bytes2 r.sequence.toNat ++ [2, 0] ++ bytes3 r.address.toNat ++ [byte r.entryIndex]
      ++ bytes2 r.generation.toNat ++ bytes2 w.toNat := by
  rw [LogRecord.layout, h]
  rfl

end

/-- Settles O40: an empty log, or the oldest record by its kind. -/
theorem popTakesTheOldestRecord : Obligations.PopTakesTheOldestRecord := by
  refine fun s hs => ⟨fun h => commanded hs (logPopOwner_empty h), fun r rest h => ?_⟩
  have hpop := commanded (w := false) (code := 0x50) hs (logPopOwner_taken (s := (windowBegun s).setCommand 0x50) h)
  cases hb : r.body with
  | shadow w =>
    rw [layout_shadow hb] at hpop
    exact hpop
  | trap k =>
    rw [layout_trap hb] at hpop
    cases k <;> exact hpop

/-- Settles O41: ready, loading and held. -/
theorem logClearEmptiesTheLog : Obligations.LogClearEmptiesTheLog := by
  refine fun s => ⟨fun hs => ?_, fun hs hl => commandEvent_loading hs hl _ _, fun hx hb => ?_⟩
  · exact commanded hs (by rfl)
  · exact commandEvent_busy hx hb _ _ _

/-! ### The rows of CMD (R143, R145, R180) -/

/-- The command is the event of its code: `w` marks the three that are answered while the loader runs. -/
def IsCommand (c : Instr) (code : Byte) (w : Bool) : Prop := ∃ owner, ∀ s, exec c s = commandEvent code w owner s

theorem isCommand_of_row {c : Instr} {code : Byte} (h : (c, code) ∈ commandRows) :
    IsCommand c code (c == .tblRead || c == .genStatus || c == .ldrStatus) := by
  simp only [commandRows, List.mem_cons, Prod.mk.injEq, List.not_mem_nil, or_false] at h
  rcases h with ⟨rfl, rfl⟩ | ⟨rfl, rfl⟩ | ⟨rfl, rfl⟩ | ⟨rfl, rfl⟩ | ⟨rfl, rfl⟩ | ⟨rfl, rfl⟩ | ⟨rfl, rfl⟩ | ⟨rfl, rfl⟩
    | ⟨rfl, rfl⟩ | ⟨rfl, rfl⟩ | ⟨rfl, rfl⟩ | ⟨rfl, rfl⟩ | ⟨rfl, rfl⟩ | ⟨rfl, rfl⟩ | ⟨rfl, rfl⟩ | ⟨rfl, rfl⟩ | ⟨rfl, rfl⟩
    | ⟨rfl, rfl⟩ | ⟨rfl, rfl⟩ | ⟨rfl, rfl⟩ <;> exact ⟨_, fun _ => rfl⟩

theorem exec_badCommand {s : State} {v : Byte} (hx : s.pins.xrst = false) (hv : namesCommand v = false) :
    exec (.badCommand v) s = .next (badCommandEffect v (windowBegun s)) := by
  change execBadCommand v s = _
  rw [execBadCommand, hv]
  exact windowEvent_eq hx _

theorem exec_parameterWrite {s : State} (hx : s.pins.xrst = false) (i : Fin 16) (v : Byte) :
    exec (.parameterWrite i v) s = .next ((windowBegun s).writeParam i v) := by
  change execParameterWrite i v s = _
  exact windowEvent_eq hx _

/-- Settles O42: the rows of CMD, a code of no row, and a parameter byte. -/
theorem aWriteToCmdUnderBusyIsRefused : Obligations.AWriteToCmdUnderBusyIsRefused := by
  refine fun s hx hb => ⟨?_, fun i v => ?_⟩
  · rintro c (⟨code, hc⟩ | ⟨code, rfl, hc⟩)
    · obtain ⟨owner, ho⟩ := isCommand_of_row hc
      rw [ho]
      exact commandEvent_busy hx hb _ _ _
    · rw [exec_badCommand hx hc, badCommandEffect, if_pos (by exact hb)]
      rfl
  · rw [exec_parameterWrite hx, State.writeParam, if_pos (by exact hb)]

/-- Settles O43: the rows of CMD that are not answered while the loader runs. -/
theorem commandsAreLoaderActiveDuringARun : Obligations.CommandsAreLoaderActiveDuringARun := by
  intro s c code hs hl hc h1 h2 h3
  obtain ⟨owner, ho⟩ := isCommand_of_row hc
  have hw : (c == .tblRead || c == .genStatus || c == .ldrStatus) = false := by simp [h1, h2, h3]
  rw [ho, hw]
  exact commandEvent_loading hs hl _ _

/-! ### Writes of the window (R140, R147, R186) -/

theorem cmdWrite_mem : ∀ v ∈ commandCodes, (cmdWrite v, v) ∈ commandRows := by decide

theorem cmdWrite_row : ∀ p ∈ commandRows, cmdWrite p.2 = p.1 ∧ namesCommand p.2 = true := by decide

theorem cmdWrite_badCommand : ∀ v : Byte, namesCommand v = false → cmdWrite v = .badCommand v := by decide +kernel

theorem mem_commandRows_iff (c : Instr) (v : Byte) :
    (c, v) ∈ commandRows ↔ windowWrite 0x00 v = c ∧ namesCommand v = true := by
  refine ⟨cmdWrite_row (c, v), ?_⟩
  rintro ⟨rfl, hv⟩
  exact cmdWrite_mem v (List.contains_iff_mem.mp hv)

theorem windowWrite_parameter (i : Fin 16) (v : Byte) :
    windowWrite (BitVec.ofNat 5 (16 + i.val)) v = .parameterWrite i v := by
  fin_cases i <;> rfl

theorem windowWrite_ignored {o : BitVec 5} (ho : o = 2 ∨ (7 ≤ o.toNat ∧ o.toNat ≤ 15)) (v : Byte) :
    windowWrite o v = .windowWriteIgnored o v false := by
  rcases ho with rfl | ⟨h1, h2⟩
  · rfl
  · obtain ⟨⟨n, hn⟩⟩ := o
    have h1 : 7 ≤ n := h1
    have h2 : n ≤ 15 := h2
    interval_cases n <;> rfl

theorem windowRead_eq (o : BitVec 5) :
    windowRead o = if o = 5 then some .dataLoRead else if o = 6 then some .dataHiRead else none := by
  obtain ⟨⟨n, hn⟩⟩ := o
  interval_cases n <;> rfl

/-- Settles O44: the effect of each write, and the command that each offset's write is. -/
theorem windowWritesActOnTheirOwnOffset : Obligations.WindowWritesActOnTheirOwnOffset := by
  refine ⟨fun s v => ⟨fun hs hv => ?_, fun hs i => ?_, fun hx => ?_, fun hx offset both => ?_⟩, fun v => ⟨fun c =>
    mem_commandRows_iff c v, cmdWrite_badCommand v, rfl, rfl, rfl, rfl, rfl, fun i => windowWrite_parameter i v,
    fun o ho => windowWrite_ignored ho v, fun o => ⟨fun _ _ => rfl, rfl, rfl, rfl, windowRead_eq o⟩⟩⟩
  · rw [exec_badCommand hs.1 hv, badCommandEffect, if_neg (by simp [hs.2])]
    rfl
  · rw [exec_parameterWrite hs.1, State.writeParam, if_neg (by simp [hs.2])]
    rfl
  · change execStatusWrite v s = _
    exact windowEvent_eq hx _
  · change execWindowWriteIgnored offset v both s = _
    exact windowEvent_eq hx _

/-! ### Chip reset (R40, R140) -/

theorem outOfReset_inReset {s : State} (hx : s.pins.xrst = true) (f : State → State) : outOfReset s f = .next s :=
  congrArg Host.Outcome.next (if_pos hx)

theorem windowEvent_inReset {s : State} (hx : s.pins.xrst = true) (f : State → State) : windowEvent s f = .next s :=
  outOfReset_inReset hx fun s => f s.dataEnded

theorem commandEvent_inReset {s : State} (hx : s.pins.xrst = true) (code : Byte) (w : Bool) (owner : State → State) :
    commandEvent code w owner s = .next s := windowEvent_inReset hx _

theorem exec_inReset {s : State} {c : Instr} (hx : s.pins.xrst = true) (hp : ∀ l a f, c ≠ .powerOn l a f)
    (hr : ∀ l, c ≠ .xrstRelease l) (ha : c ≠ .trstAssert) (ht : c ≠ .trstRelease)
    (hf : ∀ fa l k d fd, c ≠ .freqPresent fa l k d fd) (hw : c ≠ .freqRelease) (hl : c ≠ .dataLoRead)
    (hh : c ≠ .dataHiRead) : exec c s = .next s := by
  unfold exec
  cases c with
  | powerOn l a f => exact absurd rfl (hp l a f)
  | xrstRelease l => exact absurd rfl (hr l)
  | trstAssert => exact absurd rfl ha
  | trstRelease => exact absurd rfl ht
  | freqPresent fa l k d fd => exact absurd rfl (hf fa l k d fd)
  | freqRelease => exact absurd rfl hw
  | dataLoRead => exact absurd rfl hl
  | dataHiRead => exact absurd rfl hh
  | xrstAssert => exact congrArg Host.Outcome.next (if_pos hx)
  | badCommand v =>
    dsimp only [execBadCommand]
    split
    · rfl
    · exact windowEvent_inReset hx _
  | segAlloc | segSelect | segSeal | segUnseal | segFree | segInfo | stgInsert | stgRemove | stgClear | stgCopyLive
  | tblRead | cntClear | commit | commitAbort | revert | confirm | genStatus | logPop | logClear | ldrStatus =>
    exact commandEvent_inReset hx _ _ _
  | parameterWrite | statusWrite | intPendWrite | intEnWrite | dataLoWrite | dataHiWrite | windowWriteIgnored =>
    exact windowEvent_inReset hx _
  | _ => exact outOfReset_inReset hx _

/-- Settles O46: every command but the levels and the data-port reads changes nothing in chip reset. -/
theorem inChipResetOnlyLevelsMove : Obligations.InChipResetOnlyLevelsMove := by
  intro s hx
  refine ⟨fun c => exec_inReset hx, ?_, ?_, ?_, ?_, fun o => if_pos hx⟩
  · change Host.Outcome.next (if s.pins.trst then s else if s.pins.xrst then _ else _) = _
    rw [if_pos hx]
    cases ht : s.pins.trst with
    | false => rfl
    | true =>
      rw [if_pos rfl, ← ht]
  · exact congrArg Host.Outcome.next (if_pos hx)
  · exact congrArg Host.Outcome.next (if_pos hx)
  · exact congrArg Host.Outcome.next (if_pos hx)

/-! ### Reads of the window (R57, R140, R179) -/

theorem statusBits : ∀ (b r d l : Bool) (g : Fin 4),
    let v := BitVec.ofNat 8 (b.toNat + 2 * r.toNat + 4 * d.toNat + 8 * l.toNat + 16 * g.val)
    v.getLsbD 0 = b ∧ v.getLsbD 1 = r ∧ v.getLsbD 2 = d ∧ v.getLsbD 3 = l ∧ v.toNat / 16 = g.val := by
  decide

theorem code_lt (g : GenState) : g.code < 4 := by cases g <;> simp [GenState.code]

theorem statusByte_bits (s : State) :
    (statusByte s).getLsbD 0 = s.cmd.busy.isSome ∧ (statusByte s).getLsbD 1 = s.cmd.refused
      ∧ (statusByte s).getLsbD 2 = s.mem.dataReject ∧ (statusByte s).getLsbD 3 = loaderRunning s
      ∧ (statusByte s).toNat / 16 = s.gen.state.code :=
  statusBits _ _ _ _ ⟨s.gen.state.code, code_lt _⟩

section

variable {s : State}

/-- R140: outside chip reset the two offsets of the data port read as their bytes. -/
theorem windowByte_data (hx : s.pins.xrst = false) :
    windowByte s 0x05 = dataLoByte s ∧ windowByte s 0x06 = dataHiByte s :=
  ⟨if_neg (by simp [hx]), if_neg (by simp [hx])⟩

theorem windowByte_status (hx : s.pins.xrst = false) : windowByte s 0x01 = statusByte s := if_neg (by simp [hx])

theorem windowByte_parameter (hx : s.pins.xrst = false) (i : Fin 16) :
    windowByte s (BitVec.ofNat 5 (16 + i.val)) = s.cmd.params[i] := by
  fin_cases i <;> exact if_neg (by simp [hx])

theorem windowByte_unassigned (hx : s.pins.xrst = false) {o : BitVec 5} (h1 : 7 ≤ o.toNat) (h2 : o.toNat ≤ 15) :
    windowByte s o = 0 := by
  obtain ⟨⟨n, hn⟩⟩ := o
  have h1 : 7 ≤ n := h1
  have h2 : n ≤ 15 := h2
  interval_cases n <;> exact if_neg (by simp [hx])

theorem dataLoByte_served {p : DataPointer} {r : Run} (hl : s.loader.state ≠ .running) (hp : s.mem.pointer = some p)
    (hr : (s.segment p.handle).run = some r) (ho : p.offset < 32 * r.count) :
    dataLoByte s = Memory.read s.mem.ram (2 * (32 * r.first + p.offset)) := by
  rw [dataLoByte, readablePointer_at hl hp hr ho]
  exact (segmentWord_bytes hr _).2

theorem dataLoByte_refused (h : readablePointer s = none) : dataLoByte s = 0xFF := by rw [dataLoByte, h]

theorem dataHiByte_refused (h : heldByte s = none) : dataHiByte s = 0xFF := by
  rw [dataHiByte, h]
  rfl

theorem readDataLo_windowData : (s.readDataLo).windowData = some (dataLoByte s) := by
  unfold State.readDataLo dataLoByte
  cases readablePointer s <;> rfl

theorem readDataHi_windowData : (s.readDataHi).windowData = some (dataHiByte s) := by
  unfold State.readDataHi dataHiByte
  split <;> next h => rw [h]; rfl

end

/-- Settles O47: offset by offset. -/
theorem aWindowReadReturnsWhatStands : Obligations.AWindowReadReturnsWhatStands := by
  intro s hx
  obtain ⟨hbusy, hrefused, hreject, hloader, hgen⟩ := statusByte_bits s
  obtain ⟨hlo, hhi⟩ := windowByte_data hx
  rw [windowByte_status hx, hlo, hhi]
  refine ⟨if_neg (by simp [hx]), hbusy, hrefused, hreject, ?_, hgen, if_neg (by simp [hx]), if_neg (by simp [hx]),
    if_neg (by simp [hx]), ⟨_, exec_dataLoRead hx, readDataLo_windowData⟩, ⟨_, exec_dataHiRead hx, readDataHi_windowData⟩,
    fun hl => ⟨fun p r => dataLoByte_served hl, fun b hb => ?_⟩, fun h => dataLoByte_refused (readablePointer_none h),
    fun h => dataHiByte_refused (heldByte_none h), windowByte_parameter hx, fun o => windowByte_unassigned hx⟩
  · rw [hloader]
    exact Bool.eq_iff_iff.mpr (by simp [loaderRunning])
  · rw [dataHiByte, heldByte_some hl hb]
    rfl

end Sys2Proof.Proofs
end

section
/-! PROOF. The causes (R135 to R138): every command but the resets and the two window writes of the interrupt registers keeps
the enable set and takes no cause out of the pending set. -/

namespace Sys2Proof.Proofs

open Sys2Proof Sys2Proof.Machine

/-! ### What raises causes and no more -/

/-- R135: the enable set is as it was, and every pending cause is still pending. -/
structure Raises (s t : State) : Prop where
  enable : t.irq.enable = s.irq.enable
  pending : s.irq.pending &&& t.irq.pending = s.irq.pending

section

variable {s t u : State}

theorem raises_of_irq (h : t.irq = s.irq) : Raises s t := ⟨by rw [h], by rw [h, BitVec.and_self]⟩

theorem Raises.rfl : Raises s s := raises_of_irq (Eq.refl _)

theorem Raises.trans (h : Raises s t) (k : Raises t u) : Raises s u :=
  ⟨k.enable.trans h.enable, by rw [← h.pending, BitVec.and_assoc, k.pending]⟩

/-- A change that leaves the causes, after what raises some. -/
theorem Raises.congr (h : Raises s t) (e : u.irq = t.irq) : Raises s u := h.trans (raises_of_irq e)

theorem raises_raise (s : State) (c : Cause) : Raises s (s.raise c) := by
  refine ⟨Eq.refl _, ?_⟩
  show s.irq.pending &&& (s.irq.pending ||| c.mask) = s.irq.pending
  ext i hi
  simp only [BitVec.getElem_and, BitVec.getElem_or]
  cases s.irq.pending[i] <;> simp

theorem Raises.raise (h : Raises s t) (c : Cause) : Raises s (t.raise c) := h.trans (raises_raise t c)

theorem raises_raise_of_irq (h : t.irq = s.irq) (c : Cause) : Raises s (t.raise c) := (raises_of_irq h).raise c

end

section

variable (s : State)

theorem raises_refuse : Raises s s.refuse := raises_raise_of_irq (by rfl) .refused

/-! ### Movements -/

theorem raises_takeSwitch (c : PendingCommit) : Raises s (s.takeSwitch c) := by
  unfold State.takeSwitch
  exact raises_raise_of_irq (by simp) .switched

theorem raises_takeRevert (o : RevertOrigin) : Raises s (s.takeRevert o) := by
  have h : Raises s (s.revertTables.setGenState .steady) := raises_of_irq (by simp)
  unfold State.takeRevert
  cases o with
  | manual => exact h.congr (Eq.refl _)
  | expiry => exact h.raise .reverted
  | resets => exact h.raise .reverted

theorem raises_takeMovement : Raises s s.takeMovement := by
  unfold State.takeMovement
  split
  · exact .rfl
  · split
    · exact raises_takeSwitch s _
    · exact .rfl
  · exact .rfl
  · exact raises_takeRevert s _

theorem raises_settle : Raises s s.settle := by
  unfold State.settle
  split
  · exact .rfl
  · exact raises_takeMovement s

theorem raises_moveFirst : Raises s s.moveFirst := by
  unfold State.moveFirst
  split
  · exact .rfl
  · exact raises_takeMovement s

theorem raises_targetResetGen : Raises s s.targetResetGen := by
  unfold State.targetResetGen
  split
  · exact .rfl
  · split
    · exact raises_takeSwitch s _
    · exact .rfl
  · exact raises_of_irq (by simp)
  · exact .rfl

theorem raises_targetReset : Raises s s.targetReset := by
  have h : Raises s ({ s with pins := { s.pins with trst := true } } : State).endRequest := raises_of_irq (by simp)
  exact (h.trans (raises_targetResetGen _)).trans (raises_settle _)

theorem raises_tick : Raises s s.tick := by
  have h : Raises s ({ s with divider := 0 } : State).tickTrial := raises_of_irq (by simp)
  unfold State.tick
  dsimp only
  split
  · exact h.trans (raises_settle _)
  · exact h

/-! ### The fetch port -/

theorem raises_handOver (h : Handover) : Raises s (s.handOver h) := by
  unfold State.handOver
  split
  · exact raises_raise_of_irq (by rfl) .logged
  · exact raises_raise_of_irq (by rfl) .overflow

theorem raises_logShadow (r : Request) (w : Word) : Raises s (s.logShadow r w) := by
  unfold State.logShadow
  split
  · exact .rfl
  · exact raises_handOver s _

theorem raises_logTrap (r : Request) (x : Resolution) : Raises s (s.logTrap r x) := by
  unfold State.logTrap
  split
  case h_4 => exact raises_handOver s _
  all_goals exact .rfl

theorem raises_deliver (r : Request) (w : Word) : Raises s (s.deliver r w) :=
  Raises.congr ((raises_of_irq (by simp)).trans (raises_logTrap (s.countResolution (s.resolveWord r)) r _))
    (State.beat_irq _ _ _)

theorem raises_serve (n : Nat) : Raises s (serve n s) := by
  induction n generalizing s with
  | zero => exact .rfl
  | succ n ih =>
    unfold serve
    split
    · exact .rfl
    · split
      · exact raises_of_irq (by simp)
      · exact raises_of_irq (by simp)
      · exact raises_of_irq (by simp)
      · exact (raises_deliver s _ _).trans (ih _)
      · exact (raises_deliver s _ _).trans (ih _)

theorem raises_switchAtAccept (p : Presentation) : Raises s (s.switchAtAccept p) := by
  unfold State.switchAtAccept
  (repeat' split) <;> first | exact .rfl | exact raises_takeSwitch s _

theorem raises_accept (p : Presentation) : Raises s (s.accept p) := by
  have h : ∀ f : FetchPort, Raises s ((s.switchAtAccept p).setFetch f) := fun f =>
    (raises_switchAtAccept s p).congr (State.setFetch_irq _ f)
  unfold State.accept
  dsimp only
  split
  · split
    · exact (h _).congr (State.startWord_irq _)
    · exact (h _).trans (raises_serve _ _)
  · exact (h _).congr (State.startRom_irq _ _ _)

theorem raises_acceptStanding : Raises s s.acceptStanding := by
  unfold State.acceptStanding
  split
  · exact .rfl
  · exact raises_accept s _

theorem raises_acceptOpen : Raises s s.acceptOpen := by
  unfold State.acceptOpen
  split
  · exact .rfl
  · exact raises_acceptStanding s

theorem raises_acceptOrBegin : Raises s s.acceptOrBegin := by
  unfold State.acceptOrBegin
  split
  · exact raises_serve s _
  · exact raises_acceptStanding s

theorem raises_romReadEnds (r : Request) (w : Word) : Raises s (s.romReadEnds r w) :=
  ((raises_of_irq (State.endRom_irq s)).trans (raises_deliver _ r w)).trans (raises_serve _ _)

theorem raises_romWriteEnds (r : Request) (w fd : Word) : Raises s (s.romWriteEnds r w fd) :=
  (((raises_of_irq (State.endRom_irq s)).trans (raises_logShadow _ r w)).congr (State.beat_irq _ r none)).congr
    (State.nextWrite_irq _ fd)

theorem raises_fetchReadEnds (c : FetchClaim) : Raises s (s.fetchReadEnds c) := by
  have h : Raises s s.freePort := raises_of_irq (State.freePort_irq s)
  unfold State.fetchReadEnds
  dsimp only
  split
  · exact h
  · exact (h.trans (raises_deliver _ _ _)).trans (raises_serve _ _)

/-! ### The loader and the CRC engine -/

theorem raises_endRun (o : OutcomeRecord) : Raises s (s.endRun o) := raises_raise_of_irq (by rfl) .loaderDone

theorem raises_failSlot (r : SlotResult) (i : Nat) : Raises s (s.failSlot r i) := by
  unfold State.failSlot
  dsimp only
  generalize hl : ({ s.loader.report { result := r, index := i } with transaction := none } : Loader) = l
  have h : Raises s (s.setLoader l).rollback := raises_of_irq (by simp)
  unfold State.fallBack
  split
  · exact h
  · exact h.congr (State.startSlot_irq _ _)
  · exact h.trans (raises_endRun _ _)

theorem raises_failRecord (r : SlotResult) : Raises s (s.failRecord r) := raises_failSlot s r _

theorem raises_reportSeal (j : CrcJob) (c : Crc32) : Raises s (s.reportSeal j c) := by
  unfold State.reportSeal
  split
  · split
    · exact raises_of_irq (State.completeRecord_irq s)
    · exact raises_failRecord s _
  · exact raises_raise_of_irq (State.release_irq _ _ _) .cmdDone

theorem raises_foldCrcWord (j : CrcJob) : Raises s (s.foldCrcWord j) := by
  unfold State.foldCrcWord
  dsimp only
  split
  · exact raises_of_irq (by rfl)
  · exact (raises_of_irq (by rfl)).trans (raises_reportSeal _ j _)

theorem raises_loaderInsert (r : InsertRequest) : Raises s (s.loaderInsert r) := by
  unfold State.loaderInsert
  split
  · exact raises_failRecord s _
  · exact raises_of_irq (by simp)

theorem raises_entryFixed (r : InsertRequest) (n : Nat) : Raises s (s.entryFixed r n) := by
  unfold State.entryFixed
  split
  · split
    · exact raises_failRecord s _
    · exact raises_loaderInsert s _
  · exact raises_loaderInsert s _

theorem raises_segmentFixed (n : Nat) (c : Crc32) : Raises s (s.segmentFixed n c) := by
  unfold State.segmentFixed
  split
  · exact raises_failRecord s _
  · split
    · exact raises_failRecord s _
    · split
      · exact raises_failRecord s _
      · exact raises_of_irq (by simp)

theorem raises_endFixed : Raises s s.endFixed := by
  unfold State.endFixed
  split
  · exact raises_failRecord s _
  · split
    · exact raises_failRecord s _
    · exact (raises_of_irq (by rfl)).trans (raises_settle _)

theorem raises_record {bs : List Byte} {act : State → State} (ha : ∀ u, Raises u (act u)) :
    Raises s (s.record bs act) := by
  unfold State.record
  split
  · exact .rfl
  · split
    · exact raises_failRecord s _
    · exact (raises_of_irq (State.readBody_irq s bs)).trans (ha _)

/-! ### The owners of commands that may move the tables -/

theorem raises_commitOwner : Raises s (commitOwner s) := by
  unfold commitOwner
  split
  · exact raises_of_irq (by rfl)
  · exact raises_of_irq (by rfl)
  · exact raises_of_irq (by rfl)
  · split
    · exact raises_of_irq (by rfl)
    · exact (raises_of_irq (by rfl)).trans (raises_settle _)

theorem commitAbortOwner_irq : (commitAbortOwner s).irq = s.irq := by
  unfold commitAbortOwner
  split <;> rfl

theorem raises_revertOwner : Raises s (revertOwner s) := by
  unfold revertOwner
  split
  · exact raises_of_irq (by rfl)
  · split
    · exact raises_of_irq (by rfl)
    · exact raises_of_irq (by rfl)
    · exact (raises_of_irq (by rfl)).trans (raises_settle _)
    · exact (raises_of_irq (by rfl)).trans (raises_settle _)

end

/-! ### The commands -/

section

variable {s t : State}

theorem raises_outOfReset {f : State → State} (hf : Raises s (f s)) (h : outOfReset s f = .next t) : Raises s t := by
  rcases outOfReset_next s t f h with rfl | ⟨-, rfl⟩
  · exact .rfl
  · exact hf

theorem raises_windowEvent {f : State → State} (hf : ∀ u, Raises u (f u)) (h : windowEvent s f = .next t) : Raises s t :=
  raises_outOfReset (f := fun u => f u.dataEnded) ((raises_of_irq (State.dataEnded_irq s)).trans (hf _)) h

theorem raises_commandEvent {code : Byte} {w : Bool} {owner : State → State} (ho : ∀ u, Raises u (owner u))
    (h : commandEvent code w owner s = .next t) : Raises s t := by
  rcases commandEvent_next code w owner s t h with rfl | rfl | rfl | ⟨-, -, -, rfl⟩
  · exact .rfl
  · exact (raises_of_irq (State.dataEnded_irq s)).trans (raises_refuse _)
  · exact raises_of_irq (by rfl)
  · exact (raises_of_irq (by rfl)).trans (ho _)

theorem raises_dataRead {f : State → State} (hf : ∀ u, (f u).irq = u.irq)
    (h : (.next (if s.pins.xrst then s.driveWindow 0 else f s.dataEnded) : Host.Outcome State Fault Refusal) = .next t) :
    Raises s t := by
  cases h
  split
  · exact raises_of_irq (by rfl)
  · exact raises_of_irq (hf _)

/-- R135 to R137: what a command does to the causes. -/
theorem exec_raises {c : Instr} (h : exec c s = .next t) (hp : ∀ l a f, c ≠ .powerOn l a f) (hx : c ≠ .xrstAssert)
    (hr : ∀ l, c ≠ .xrstRelease l) (hi : ∀ w, c ≠ .intPendWrite w) (he : ∀ w, c ≠ .intEnWrite w) : Raises s t := by
  unfold exec at h
  cases c with
  | powerOn l a f => exact absurd rfl (hp l a f)
  | xrstAssert => exact absurd rfl hx
  | xrstRelease l => exact absurd rfl (hr l)
  | intPendWrite w => exact absurd rfl (hi w)
  | intEnWrite w => exact absurd rfl (he w)
  | trstAssert =>
    cases h
    split
    · exact .rfl
    · split
      · exact raises_of_irq (by rfl)
      · exact raises_targetReset s
  | trstRelease =>
    cases h
    split
    · exact raises_of_irq (by rfl)
    · split
      · exact (raises_of_irq (by rfl)).trans (raises_acceptOpen _)
      · exact .rfl
  | resetExcess =>
    refine raises_outOfReset ?_ h
    split
    · exact raises_targetReset s
    · exact .rfl
  | freqPresent =>
    cases h
    split
    · exact .rfl
    · split
      · exact raises_of_irq (by rfl)
      · exact (raises_of_irq (by rfl)).trans (raises_acceptOpen _)
  | freqRelease =>
    cases h
    split
    · split
      · exact raises_of_irq (by rfl)
      · exact (raises_of_irq (by rfl)).trans (raises_settle _)
    · exact .rfl
  | fetchAccept => exact raises_outOfReset (raises_acceptOrBegin s) h
  | romReadDone =>
    refine raises_outOfReset ?_ h
    split
    · exact raises_romReadEnds s _ _
    · exact .rfl
  | romWriteDone =>
    refine raises_outOfReset ?_ h
    split
    · exact raises_romWriteEnds s _ _ _
    · exact .rfl
  | fetchRamReadDone =>
    refine raises_outOfReset ?_ h
    split
    · exact (raises_of_irq (State.dataEnded_irq s)).trans (raises_fetchReadEnds _ _)
    · exact raises_of_irq (State.freePort_irq s)
    all_goals exact .rfl
  | crcWordRead =>
    refine raises_outOfReset ?_ h
    split
    · exact .rfl
    · exact (raises_of_irq (State.dataEnded_irq s)).trans (raises_foldCrcWord _ _)
  | sealComplete =>
    refine raises_outOfReset ?_ h
    split
    · exact .rfl
    · split
      · exact .rfl
      · exact (raises_of_irq (State.dataEnded_irq s)).trans (raises_foldCrcWord _ _)
  | msTick => exact raises_outOfReset (raises_tick s) h
  | probationExpiry =>
    refine raises_outOfReset ?_ h
    split
    · exact raises_tick s
    · exact .rfl
  | switch =>
    refine raises_outOfReset ?_ h
    split
    · exact .rfl
    · split
      · exact raises_acceptStanding s
      · exact raises_moveFirst s
    all_goals exact .rfl
  | revertTaken =>
    refine raises_outOfReset ?_ h
    split
    case h_4 => exact raises_moveFirst s
    all_goals exact .rfl
  | segAlloc | segSelect | segSeal | segUnseal | segFree | segInfo | stgInsert | stgRemove | stgClear | stgCopyLive
  | tblRead | cntClear | confirm | genStatus | logPop | logClear | ldrStatus =>
    exact raises_commandEvent (fun u => raises_of_irq (by simp)) h
  | commit => exact raises_commandEvent raises_commitOwner h
  | commitAbort => exact raises_commandEvent (fun u => raises_of_irq (commitAbortOwner_irq u)) h
  | revert => exact raises_commandEvent raises_revertOwner h
  | badCommand v =>
    dsimp only [execBadCommand] at h
    split at h
    · cases h
      exact .rfl
    · refine raises_windowEvent (fun u => ?_) h
      unfold badCommandEffect
      split
      · exact raises_refuse u
      · exact raises_of_irq (by rfl)
  | parameterWrite | statusWrite | dataLoWrite | dataHiWrite =>
    exact raises_windowEvent (fun u => raises_of_irq (by simp)) h
  | windowWriteIgnored => exact raises_windowEvent (fun u => .rfl) h
  | dataLoRead => exact raises_dataRead State.readDataLo_irq h
  | dataHiRead => exact raises_dataRead State.readDataHi_irq h
  | zeroFillEnd =>
    refine raises_outOfReset ?_ h
    split
    · split
      · exact raises_of_irq (by rfl)
      · exact (raises_of_irq (State.zeroFill_irq s)).trans (raises_endRun _ _)
    · exact .rfl
  | headerReceived =>
    refine raises_outOfReset ?_ h
    split
    · split
      · exact raises_failSlot s _ _
      · exact raises_of_irq (by rfl)
    · exact .rfl
  | unknownRecordType =>
    refine raises_outOfReset ?_ h
    split
    · exact raises_failRecord s _
    · exact .rfl
  | segmentRecord => exact raises_outOfReset (raises_record s fun u => raises_segmentFixed u _ _) h
  | segmentWord =>
    refine raises_outOfReset ?_ h
    (repeat' split) <;> exact raises_of_irq (by simp)
  | entryRecord => exact raises_outOfReset (raises_record s fun u => raises_entryFixed u _ _) h
  | endRecord => exact raises_outOfReset (raises_record s raises_endFixed) h
  | loaderRunEnd =>
    refine raises_outOfReset ?_ h
    split
    · exact raises_endRun s _
    · exact .rfl

/-! ### The two window writes of the interrupt registers, and WINT -/

theorem exec_intEnWrite (hx : s.pins.xrst = false) (v : Byte) :
    exec (.intEnWrite v) s = .next ((windowBegun s).writeIntEn v) := by
  change execIntEnWrite v s = _
  exact windowEvent_eq hx _

theorem exec_intPendWrite (hx : s.pins.xrst = false) (v : Byte) :
    exec (.intPendWrite v) s = .next ((windowBegun s).writeIntPend v) := by
  change execIntPendWrite v s = _
  exact windowEvent_eq hx _

theorem intEnWrite_pending {v : Byte} (h : exec (.intEnWrite v) s = .next t) : t.irq.pending = s.irq.pending := by
  change windowEvent s (fun s => s.writeIntEn v) = _ at h
  rcases windowEvent_next s t _ h with rfl | ⟨-, rfl⟩ <;> rfl

theorem intPendWrite_enable {v : Byte} (h : exec (.intPendWrite v) s = .next t) : t.irq.enable = s.irq.enable := by
  change windowEvent s (fun s => s.writeIntPend v) = _ at h
  rcases windowEvent_next s t _ h with rfl | ⟨-, rfl⟩ <;> rfl

theorem exists_cause_bit : ∀ i : Fin 7, ∃ c : Cause, c.bit = i.val := by
  intro i
  fin_cases i
  exacts [⟨.logged, rfl⟩, ⟨.overflow, rfl⟩, ⟨.switched, rfl⟩, ⟨.reverted, rfl⟩, ⟨.cmdDone, rfl⟩, ⟨.loaderDone, rfl⟩,
    ⟨.refused, rfl⟩]

theorem wintAsserted_iff :
    wintAsserted s = true ↔ ∃ c : Cause, holdsCause s.irq.pending c = true ∧ holdsCause s.irq.enable c = true := by
  simp only [wintAsserted, bne_iff_ne, ne_eq, holdsCause]
  constructor
  · intro h
    by_contra hn
    refine h (BitVec.eq_of_getLsbD_eq fun i hi => ?_)
    obtain ⟨c, hc⟩ := exists_cause_bit ⟨i, hi⟩
    have hboth := not_exists.mp hn c
    rw [show c.bit = i from hc] at hboth
    simpa using hboth
  · rintro ⟨c, h1, h2⟩ h
    have hbit := congrArg (fun v => v.getLsbD c.bit) h
    simp [h1, h2] at hbit

end

/-- Settles O45: what each command does to the two sets. -/
theorem causesStayUntilTheyAreCleared : Obligations.CausesStayUntilTheyAreCleared := by
  intro s v
  refine ⟨fun hx => exec_intEnWrite hx v, fun hx => exec_intPendWrite hx v, fun c t h hi hp hr hx => ?_,
    fun c t h hi hp hr hx => ?_, fun hx => ⟨if_neg (by simp [hx]), if_neg (by simp [hx])⟩, wintAsserted_iff,
    fun l a f t h => ?_, fun t hx h => ?_⟩
  · by_cases he : ∃ w, c = .intEnWrite w
    · obtain ⟨w, rfl⟩ := he
      rw [intEnWrite_pending h, BitVec.and_self]
    · exact (exec_raises h hp hx hr hi fun w e => he ⟨w, e⟩).pending
  · by_cases he : ∃ w, c = .intPendWrite w
    · obtain ⟨w, rfl⟩ := he
      exact intPendWrite_enable h
    · exact (exec_raises h hp hx hr (fun w e => he ⟨w, e⟩) hi).enable
  · cases h
    rfl
  · change Host.Outcome.next (if s.pins.xrst then s else _) = _ at h
    rw [hx] at h
    cases h
    rfl

end Sys2Proof.Proofs
end

section
/-! PROOF. The statements about the loader's run, its headers and its records (R155 to R174, R185): what each event of the
flash does in its phase. -/

namespace Sys2Proof.Proofs

open Sys2Proof Sys2Proof.Machine

/-! ### The run (R155 to R160, R173) -/

section

variable {s : State}

theorem inPhase_true {p : LoaderPhase} (hl : s.loader.state = .running) (hp : s.loader.phase = p) : inPhase s p = true :=
  inPhase_iff.mpr ⟨hl, hp⟩

theorem inPhase_false {p : LoaderPhase} (h : s.loader.state ≠ .running ∨ s.loader.phase ≠ p) : inPhase s p = false := by
  rw [← Bool.not_eq_true, inPhase_iff]
  rintro ⟨h1, h2⟩
  exact h.elim (fun hl => hl h1) fun hp => hp h2

theorem exec_zeroFillEnd (hx : s.pins.xrst = false) (hp : inPhase s .zeroFill = true) :
    exec .zeroFillEnd s = .next (if s.loader.lden then s.zeroFill.startSlot .a
      else s.zeroFill.endRun { s.loader.outcome with overall := .notEnabled }) := by
  simp [exec, execZeroFillEnd, outOfReset, hx, hp]

theorem exec_zeroFillEnd_outside (hx : s.pins.xrst = false) (hp : inPhase s .zeroFill = false) :
    exec .zeroFillEnd s = .next s := by
  simp [exec, execZeroFillEnd, outOfReset, hx, hp]

theorem exec_loaderRunEnd (hx : s.pins.xrst = false) :
    exec .loaderRunEnd s = .next (if loaderSwitched s then s.endRun s.loader.loaded else s) := outOfReset_eq hx _

theorem loaderSwitched_iff : loaderSwitched s = true ↔
    s.loader.state = .running ∧ s.loader.phase = .switchWait ∧ ∀ c, s.gen.state ≠ .commitPending c := by
  rw [loaderSwitched, Bool.and_eq_true, inPhase_iff, and_assoc]
  cases s.gen.state <;> simp [GenState.pendingCommit]

theorem holdoutAsserted_iff : holdoutAsserted s = true ↔ s.loader.state = .running ∨ s.pins.xrst = true := by
  simp [holdoutAsserted, loaderRunning]

theorem spiLevels_idle (h : s.loader.transaction = none) :
    spiLevels s = { ssel := true, sck := false, sdo := false } ∧ sdoBytes s = [] := by
  simp [spiLevels, sselAsserted, sdoBytes, h]

theorem sdoBytes_transaction {a : FlashAddr} (h : s.loader.transaction = some a) :
    sdoBytes s = [0x03, a.extractLsb' 16 8, a.extractLsb' 8 8, a.extractLsb' 0 8]
      ++ List.replicate (clockedBytes s.loader) 0 := by
  rw [sdoBytes, h]
  dsimp only
  rw [transactionBytes, readCommand_eq]

end

/-- Settles O48: the ends of the zero-fill and of the run, HOLDOUT and the serial link. -/
theorem aRunBeginsAndEnds : Obligations.ARunBeginsAndEnds := by
  refine ⟨fun s hx => ⟨fun hl hp => ⟨fun hd => ?_, fun hd => ?_⟩, fun hl hp hc => ?_, fun h => ?_, fun h => ?_⟩,
    fun s => ⟨holdoutAsserted_iff, spiLevels_idle, fun a ha => ⟨?_, fun hh => ?_, fun hh => ?_⟩⟩⟩
  · rw [exec_zeroFillEnd hx (inPhase_true hl hp), if_pos hd]
    rfl
  · rw [exec_zeroFillEnd hx (inPhase_true hl hp), if_neg (by simp [hd])]
    rfl
  · rw [exec_loaderRunEnd hx, if_pos (loaderSwitched_iff.mpr ⟨hl, hp, hc⟩)]
    rfl
  · rw [exec_loaderRunEnd hx, if_neg]
    rw [loaderSwitched_iff]
    rintro ⟨hl, hp, hc⟩
    rcases h with h | h | ⟨c, h⟩
    · exact h hl
    · exact h hp
    · exact hc c h
  · exact exec_zeroFillEnd_outside hx (inPhase_false h)
  · simp [spiLevels, sselAsserted, ha]
  · rw [sdoBytes_transaction ha, clockedBytes, hh]
    rfl
  · obtain ⟨h, hsome⟩ := Option.isSome_iff_exists.mp hh
    rw [sdoBytes_transaction ha, clockedBytes, hsome]

/-! ### The header (R161 to R163, R185) -/

theorem wordOf_eq_iff (h l : Byte) (w : Word) : wordOf h l = w ↔ l = lowByte w ∧ h = highByte w := by
  constructor
  · rintro rfl
    obtain ⟨hh, hl⟩ := wordOf_parts h l
    exact ⟨hl.symm, hh.symm⟩
  · rintro ⟨rfl, rfl⟩
    apply BitVec.eq_of_toNat_eq
    rw [wordOf, toNat_append_byte]
    simp only [highByte, lowByte, BitVec.toNat_setWidth, BitVec.toNat_ushiftRight, Nat.shiftRight_eq_div_pow]
    have := w.isLt
    omega

theorem toNat_wordOf (h l : Byte) : (wordOf h l).toNat = l.toNat + 256 * h.toNat := by
  rw [wordOf, toNat_append_byte]
  omega

/-- Four bytes are the same number in two steps as in one. -/
theorem wordOf_append_wordOf (a b c d : Byte) : wordOf a b ++ wordOf c d = a ++ b ++ c ++ d := by
  apply BitVec.eq_of_toNat_eq
  rw [BitVec.toNat_append, ← Nat.shiftLeft_add_eq_or_of_lt (wordOf c d).isLt, Nat.shiftLeft_eq, toNat_wordOf, toNat_wordOf]
  simp only [toNat_append_byte]
  omega

/-- R163: the checks of a header after its mark. -/
def HeaderGood (b : Vector Byte 16) : Prop :=
  crc16 (headerBody b) = b[15] ++ b[14] ∧ b[2] = 1 ∧ b[4].toNat ≤ 7 ∧ 1 ≤ b[7].toNat ∧ b[7].toNat ≤ 96
    ∧ 1 ≤ b[8].toNat + 256 * b[9].toNat ∧ b[8].toNat + 256 * b[9].toNat ≤ 65520
    ∧ (b[3].getLsbD 0 = true → b[5].toNat + 256 * b[6].toNat ≠ 0)

section

variable {b : Vector Byte 16}

theorem headerFailure_noImage (h : b[0] ≠ 0x36 ∨ b[1] ≠ 0x4F) : headerFailure b = some .noImage := by
  have hm : (parseHeader b).mark ≠ 0x4F36 := by
    intro e
    obtain ⟨h0, h1⟩ := (wordOf_eq_iff b[1] b[0] 0x4F36).mp e
    exact h.elim (fun hn => hn h0) fun hn => hn h1
  exact if_pos hm

theorem mark_eq (h0 : b[0] = 0x36) (h1 : b[1] = 0x4F) : (parseHeader b).mark = 0x4F36 :=
  (wordOf_eq_iff b[1] b[0] 0x4F36).mpr ⟨h0, h1⟩

theorem toNat_eq_zero_iff {n : Nat} (v : BitVec n) : v = 0 ↔ v.toNat = 0 := by
  rw [← BitVec.toNat_inj]
  simp

/-- R163: the checks after the mark, on the fields of the header. -/
theorem headerGood_iff :
    HeaderGood b ↔ (parseHeader b).headerCrc = crc16 (headerBody b) ∧ (parseHeader b).format = 1
      ∧ ¬ ((parseHeader b).tolerance.toNat > 7 ∨ (parseHeader b).recordCount = 0
        ∨ (parseHeader b).recordCount.toNat > Config.maxRecords ∨ (parseHeader b).bodyLength = 0
        ∨ (parseHeader b).bodyLength.toNat > Config.maxBody)
      ∧ ¬ ((parseHeader b).asksTrial ∧ (parseHeader b).probation = 0) := by
  have hlen : (parseHeader b).bodyLength.toNat = b[8].toNat + 256 * b[9].toNat := toNat_wordOf _ _
  have hprob : (parseHeader b).probation.toNat = b[5].toNat + 256 * b[6].toNat := toNat_wordOf _ _
  have htol : (parseHeader b).tolerance.toNat = b[4].toNat := rfl
  have hcount : (parseHeader b).recordCount.toNat = b[7].toNat := rfl
  have hcrc : (parseHeader b).headerCrc = crc16 (headerBody b) ↔ crc16 (headerBody b) = b[15] ++ b[14] := eq_comm
  have hformat : (parseHeader b).format = 1 ↔ b[2] = 1 := Iff.rfl
  have htrial : (parseHeader b).asksTrial = b[3].getLsbD 0 := rfl
  rw [HeaderGood, toNat_eq_zero_iff, toNat_eq_zero_iff, toNat_eq_zero_iff, hlen, hprob, htol, hcount, hcrc, hformat, htrial]
  simp only [Config.maxRecords, Config.maxBody, not_or, not_and, gt_iff_lt, Nat.not_lt]
  constructor
  · rintro ⟨hc, hf, ht, hr1, hr2, hb1, hb2, hp⟩
    exact ⟨hc, hf, ⟨ht, by omega, hr2, by omega, hb2⟩, hp⟩
  · rintro ⟨hc, hf, ⟨ht, hr1, hr2, hb1, hb2⟩, hp⟩
    exact ⟨hc, hf, ht, by omega, hr2, by omega, hb2, hp⟩

theorem headerFailure_none (h0 : b[0] = 0x36) (h1 : b[1] = 0x4F) (hg : HeaderGood b) : headerFailure b = none := by
  obtain ⟨hcrc, hformat, hrange, htrial⟩ := headerGood_iff.mp hg
  unfold headerFailure
  dsimp only
  rw [if_neg (not_not.mpr (mark_eq h0 h1)), if_neg (not_not.mpr hcrc), if_neg (not_not.mpr hformat), if_neg hrange,
    if_neg htrial]

/-- R163: every check after the mark answers HEADER_BAD. -/
theorem headerFailure_headerBad (h0 : b[0] = 0x36) (h1 : b[1] = 0x4F) (hg : ¬ HeaderGood b) :
    headerFailure b = some .headerBad := by
  unfold headerFailure
  dsimp only
  rw [if_neg (not_not.mpr (mark_eq h0 h1))]
  split
  · rfl
  · split
    · rfl
    · split
      · rfl
      · split
        · rfl
        · next hcrc hformat hrange htrial =>
          exact absurd (headerGood_iff.mpr ⟨not_not.mp hcrc, not_not.mp hformat, hrange, htrial⟩) hg

theorem exec_headerReceived_fails {s : State} {x : Slot} {r : SlotResult} (hx : s.pins.xrst = false)
    (hp : inPhase s .header = true) (hs : s.loader.slot = some x) (hf : headerFailure b = some r) :
    exec (.headerReceived b) s = .next (slotFailed s x r 0) := by
  simp [exec, execHeaderReceived, outOfReset, hx, hp, hf, failSlot_eq hs]

theorem exec_headerReceived_passes {s : State} (hx : s.pins.xrst = false) (hp : inPhase s .header = true)
    (hf : headerFailure b = none) :
    exec (.headerReceived b) s = .next (s.setLoader (s.loader.beginBody (parseHeader b))) := by
  simp [exec, execHeaderReceived, outOfReset, hx, hp, hf]

/-- R185: the nine fields of a header that has the mark and format 1. -/
theorem parseHeader_eq (h0 : b[0] = 0x36) (h1 : b[1] = 0x4F) (h2 : b[2] = 1) :
    parseHeader b =
      { mark := 0x4F36, format := 1, flags := b[3], tolerance := b[4], probation := b[6] ++ b[5]
        recordCount := b[7], bodyLength := b[9] ++ b[8], bodyCrc := b[13] ++ b[12] ++ b[11] ++ b[10]
        headerCrc := b[15] ++ b[14] } := by
  rw [← wordOf_append_wordOf, ← h2, ← mark_eq h0 h1]
  rfl

end

/-- Settles O49: the mark, then every other check, then the body. -/
theorem theHeaderIsCheckedInOrder : Obligations.TheHeaderIsCheckedInOrder := by
  intro s b x good hx hl hp hs hgood
  have hphase := inPhase_true hl hp
  have hgood : good ↔ HeaderGood b := hgood
  refine ⟨fun h => exec_headerReceived_fails hx hphase hs (headerFailure_noImage h), fun h0 h1 h => ?_, fun h0 h1 h => ?_⟩
  · exact exec_headerReceived_fails hx hphase hs (headerFailure_headerBad h0 h1 (mt hgood.mpr h))
  · have hg := hgood.mp h
    rw [exec_headerReceived_passes hx hphase (headerFailure_none h0 h1 hg), parseHeader_eq h0 h1 hg.2.1]
    rfl

/-! ### Bad records (R164, R170 to R172) -/

section

variable {s : State} {x : Slot} {h : ImageHeader}

theorem exec_unknownRecordType (ha : AtRecord s x h) {ty : Byte} (hb : bodyLeft s = 0 ∨ namesRecord ty = false) :
    exec (.unknownRecordType ty) s = .next (slotFailed s x .recordBad s.loader.recordsTaken) := by
  obtain ⟨hx, -, -, -, hs, -⟩ := id ha
  have hguard : (atRecord s && (bodyLeft s == 0 || !namesRecord ty)) = true := by
    rw [atRecord_true ha]
    rcases hb with hb | hb <;> simp [hb]
  change execUnknownRecordType ty s = _
  unfold execUnknownRecordType
  rw [outOfReset_eq hx, if_pos hguard, failRecord_eq hs]

theorem namesRecord_false {ty : Byte} (h : ty ∉ [(1 : Byte), 2, 3]) : namesRecord ty = false := by
  simp only [List.mem_cons, List.not_mem_nil, or_false, not_or] at h
  obtain ⟨h1, h2, h3⟩ := h
  simp only [namesRecord, Bool.or_eq_false_iff, beq_eq_false_iff_ne]
  exact ⟨⟨h1, h2⟩, h3⟩

/-- R164, check 3: a record event whose fixed part passes the end of the body. -/
theorem outOfReset_record_short (ha : AtRecord s x h) {bs : List Byte}
    (hl : h.bodyLength.toNat - s.loader.bodyRead < bs.length) (act : State → State) :
    outOfReset s (fun s => s.record bs act) = .next (slotFailed s x .recordBad s.loader.recordsTaken) := by
  rw [outOfReset_eq ha.1, record_short ha hl]

theorem outOfReset_record_read (ha : AtRecord s x h) {bs : List Byte}
    (hl : bs.length ≤ h.bodyLength.toNat - s.loader.bodyRead) (act : State → State) :
    outOfReset s (fun s => s.record bs act) = .next (act (s.readBody bs)) := by
  rw [outOfReset_eq ha.1, record_read ha hl]

end

/-- Settles O50: a type byte of no record, and the fixed part of each record. -/
theorem aBadRecordFailsTheSlot : Obligations.ABadRecordFailsTheSlot := by
  rintro s x h left ha rfl
  refine ⟨fun ty hty => ?_, fun hl l crc => ?_, fun hl base l k a n o v => ?_, fun hl => ?_⟩
  · refine exec_unknownRecordType ha ?_
    rcases hty with hty | hty
    · exact .inr (namesRecord_false hty)
    · exact .inl (by rw [bodyLeft_eq ha, hty])
  · change execSegmentRecord l crc s = _
    exact outOfReset_record_short ha (by exact hl) _
  · change execEntryRecord base l k a n o v s = _
    exact outOfReset_record_short ha (by exact hl) _
  · change execEndRecord s = _
    exact outOfReset_record_short ha (by exact hl) _

/-! ### SEGMENT records (R165) -/

section

variable {s : State} {x : Slot} {h : ImageHeader}

theorem bodyLeft_readBody (s : State) (bs : List Byte) : bodyLeft (s.readBody bs) = bodyLeft s - bs.length := by
  show bodyLength s - (s.loader.bodyRead + bs.length) = bodyLength s - s.loader.bodyRead - bs.length
  omega

theorem segmentFixed_bad {n : Nat} {crc : Crc32} (hn : bodyLeft s < 2 * n ∨ n = 0 ∨ 16384 < n) :
    s.segmentFixed n crc = s.failRecord .recordBad := by
  unfold State.segmentFixed
  by_cases hb : 2 * n > bodyLeft s
  · rw [if_pos hb]
  · rw [if_neg hb, if_pos]
    rcases hn with hn | hn
    · exact absurd hn hb
    · exact hn

theorem segmentFixed_refused {n : Nat} {crc : Crc32} {c : ResultCode} (h2 : 2 * n ≤ bodyLeft s) (h0 : n ≠ 0)
    (hle : n ≤ 16384) (ha : allocAnswer s ((n + 31) / 32) = .refused c) :
    s.segmentFixed n crc = s.failRecord .noSpace := by
  unfold State.segmentFixed
  rw [if_neg (by omega), if_neg (by simp only [Config.patchWords]; omega), ha]

theorem segmentFixed_taken {n : Nat} {crc : Crc32} {k : Handle} {r : Run} (h2 : 2 * n ≤ bodyLeft s) (h0 : n ≠ 0)
    (hle : n ≤ 16384) (ha : allocAnswer s ((n + 31) / 32) = .taken k r) :
    s.segmentFixed n crc = s.beginSegment k r n crc := by
  unfold State.segmentFixed
  rw [if_neg (by omega), if_neg (by simp only [Config.patchWords]; omega), ha]

/-- R46: an allocation in range is refused where no handle is FREE or no run is long enough. -/
theorem allocAnswer_refused {k : Nat} (h1 : 1 ≤ k) (h2 : k ≤ 512)
    (h : (∀ h, s.segment h ≠ .free) ∨ ∀ g, ¬ RunIsFree s g k) : ∃ c, allocAnswer s k = .refused c := by
  cases hc : allocAnswer s k with
  | refused c => exact ⟨c, rfl⟩
  | taken j r =>
    exfalso
    unfold allocAnswer at hc
    rw [if_neg (by simp only [Config.granules]; omega)] at hc
    rcases h with h | h
    · rw [lowestFreeHandle_none h] at hc
      cases hc
    · rw [firstFit_none h2 h] at hc
      split at hc <;> cases hc

end

/-- Settles O51: the fixed part's checks, the pool, and the segment that is begun. -/
theorem aSegmentRecordAllocatesItsSegment : Obligations.ASegmentRecordAllocatesItsSegment := by
  rintro s x hd left l crc ha rfl h7
  obtain ⟨-, -, -, -, hs, -⟩ := id ha
  have hleft : bodyLeft (s.readBody (segmentRecordBytes l crc)) = hd.bodyLength.toNat - s.loader.bodyRead - 7 := by
    rw [bodyLeft_readBody, bodyLeft_eq ha]
    rfl
  have hexec : exec (.segmentRecord l crc) s
      = .next ((s.readBody (segmentRecordBytes l crc)).segmentFixed l.toNat crc) := by
    change execSegmentRecord l crc s = _
    exact outOfReset_record_read ha (by exact h7) _
  rw [hexec]
  refine ⟨fun hbad => ?_, ?_⟩
  · rw [segmentFixed_bad, failRecord_readBody hs]
    rw [hleft]
    rcases hbad with hbad | rfl | hbad
    · exact .inl (by omega)
    · exact .inr (.inl rfl)
    · exact .inr (.inr hbad)
  · rintro hfit hne hle k rfl
    have hpos : l.toNat ≠ 0 := fun e => hne ((toNat_eq_zero_iff l).mpr e)
    have h2 : 2 * l.toNat ≤ bodyLeft (s.readBody (segmentRecordBytes l crc)) := by
      rw [hleft]
      omega
    refine ⟨fun hnone => ?_, fun h g hf hlow hr hg => ?_⟩
    · obtain ⟨c, hc⟩ := allocAnswer_refused (s := s.readBody (segmentRecordBytes l crc)) (k := (l.toNat + 31) / 32)
        (by omega) (by omega) hnone
      rw [segmentFixed_refused h2 hpos hle hc, failRecord_readBody hs]
    · rw [segmentFixed_taken h2 hpos hle (allocAnswer_taken (by omega) (by omega) (by exact hf) hlow hr hg)]
      rfl

end Sys2Proof.Proofs
end

section
/-! PROOF. The statements about the words and seals of SEGMENT records, ENTRY records and END records (R60 to R66, R164 to
R169, R106). -/

namespace Sys2Proof.Proofs

open Sys2Proof Sys2Proof.Machine

/-! ### The words of a SEGMENT record and its seal (R166) -/

section

variable {s : State} {p : SegmentProgress} {r : Run}

theorem loadWord_eq (hs : s.segment p.handle = .opened r) (w : Word) :
    s.loadWord p w = { s with
      mem := { s.mem with
        ram := ramStore s.mem.ram (32 * r.first + p.written) w
        arbiter := s.mem.arbiter.idled.dataAsked }
      loader := { bytesRead s.loader [lowByte w, highByte w] with current := some { p with written := p.written + 1 } } } := by
  have hrun : ((windowBegun (s.readBody [lowByte w, highByte w])).segment p.handle).run = some r := by
    rw [show (windowBegun (s.readBody [lowByte w, highByte w])).segment p.handle = .opened r from hs]
    rfl
  unfold State.loadWord
  dsimp only
  rw [dataEnded_begun, storeSegmentWord_eq hrun, claimData_state_eq]
  rfl

theorem loaderSeal_eq (s : State) (p : SegmentProgress) (r : Run) :
    s.loaderSeal p r = { s with
      mem := { s.mem.withSegment p.handle (.sealing r p.length) with
        crcJob := some
          { handle := p.handle, length := p.length, expected := p.expected, remainder := 0xFFFFFFFF
            offset := 0, forLoader := true }
        arbiter := s.mem.arbiter.asked }
      loader := { s.loader with phase := .sealWait } } := by
  rw [← claimCrc_eq]
  rfl

theorem exec_segmentWord (hx : s.pins.xrst = false) (hp : inPhase s .records = true) (hc : s.loader.current = some p)
    (hs : s.segment p.handle = .opened r) (w : Word) :
    exec (.segmentWord w) s
      = .next (if p.written + 1 < p.length then s.loadWord p w else (s.loadWord p w).loaderSeal p r) := by
  simp [exec, execSegmentWord, outOfReset, hx, hp, hc, hs]

/-- R166: a seal that serves the loader completes its record, or fails the slot. -/
theorem reportSeal_loader {j : CrcJob} (h : j.forLoader = true) (crc : Crc32) :
    s.reportSeal j crc = if crc = j.expected then s.completeRecord else s.failRecord .sealCrc := by
  rw [State.reportSeal, h]
  rfl

theorem failRecord_sealEnded {j : CrcJob} {x : Slot} (hs : s.loader.slot = some x) (crc : Crc32) (e : SlotResult) :
    (sealEnded s j r crc).failRecord e = slotFailed s x e s.loader.recordsTaken := by
  rw [failRecord_eq (s := sealEnded s j r crc) (by exact hs)]
  cases x <;> rfl

theorem slotFailed_windowBegun (s : State) (x : Slot) (e : SlotResult) (i : Nat) :
    slotFailed (windowBegun s) x e i = slotFailed s x e i := by
  cases x <;> rfl

end

/-- Settles O52: each word, the last one with the seal request, and the seal's end. -/
theorem aSegmentIsWrittenAndSealed : Obligations.ASegmentIsWrittenAndSealed := by
  refine fun s r hx hl => ⟨fun p w hm hp hc hs => ⟨_, wordStored_ramStore s.mem.ram r p.written w hm,
    Memory.wf_ramStore _ _ _ hm, fun hlt => ?_, fun heq => ?_⟩, fun j x crc ha hj hf hslot hg hlast hcrc c hcase => ?_⟩
  · rw [exec_segmentWord hx (inPhase_true hl hp) hc hs, if_pos hlt, loadWord_eq hs]
    rfl
  · rw [exec_segmentWord hx (inPhase_true hl hp) hc hs, if_neg (by omega), loaderSeal_eq, loadWord_eq hs]
    rfl
  · have hjob : servedJob (windowBegun s) = some j := servedJob_iff.mpr ⟨ha, hj⟩
    have hend : ¬ j.offset + 1 < j.length := by omega
    have hexec : exec c s = .next ((windowBegun s).foldCrcWord j) := by
      rcases hcase with rfl | rfl
      · exact exec_crcWordRead hx hjob
      · exact exec_sealComplete_last hx hjob hend
    rw [hexec, foldCrcWord_last hend (by exact hg) (by exact hcrc), reportSeal_loader hf]
    refine ⟨fun heq => ?_, fun hne => ?_⟩
    · rw [if_pos heq, sealEnded, if_pos heq]
      rfl
    · rw [if_neg hne, failRecord_sealEnded (s := windowBegun s) (by exact hslot), slotFailed_windowBegun]
      rfl

/-! ### ENTRY records (R167) -/

/-- R185: the fields of an ENTRY record, with the number of the segment its ordinal names. -/
def recordRequest (base : BitVec 24) (l : Word) (k a : Byte) (o v : Word) (segment : Nat) : InsertRequest :=
  { base := base.toNat, length := l.toNat, kind := k, applies := a, segment := segment, offset := o.toNat, value := v }

section

variable {s : State} {base : BitVec 24} {l : Word} {k a n : Byte} {o v : Word} {e : Entry}

theorem body_of_insertBody {r : InsertRequest} {b : EntryBody} (h : InsertBody r b) : r.body = some b := by
  unfold InsertRequest.body
  cases b with
  | replace j o =>
    obtain ⟨hk, hs, rfl, ho⟩ := h
    rw [if_pos hk, hs, handleOf_number]
    exact if_neg (by simp only [Config.maxOffset]; omega)
  | fill v =>
    obtain ⟨hk, rfl⟩ := h
    rw [hk]
    rfl
  | trap v =>
    obtain ⟨hk, rfl⟩ := h
    rw [hk]
    rfl
  | count =>
    have hk : r.kind = 4 := h
    rw [hk]
    rfl

theorem entryFixed_plain (hk : k ≠ 1) :
    s.entryFixed (recordRequest base l k a o v 0) n.toNat = s.loaderInsert (recordRequest base l k a o v 0) := if_neg hk

theorem entryFixed_named {j : Handle} (hk : k = 1) (hj : s.loader.segmentMap[n.toNat]? = some j) :
    s.entryFixed (recordRequest base l k a o v 0) n.toNat
      = s.loaderInsert (recordRequest base l k a o v (j.val + 1)) := by
  rw [State.entryFixed, if_pos (by exact hk), hj]
  rfl

theorem entryFixed_unnamed (hk : k = 1) (hj : s.loader.segmentMap[n.toNat]? = none) :
    s.entryFixed (recordRequest base l k a o v 0) n.toNat = s.failRecord .recordBad := by
  rw [State.entryFixed, if_pos (by exact hk), hj]

/-- R167: the request that is inserted gives the entry the record asks for. -/
theorem entryFixed_asked (h : RecordAsks s.loader.segmentMap base l k a n o v e) :
    ∃ q : InsertRequest, q.entry = some e
      ∧ s.entryFixed (recordRequest base l k a o v 0) n.toNat = s.loaderInsert q := by
  obtain ⟨hbase, hlength, hpos, hle, htop, hhits, happlies, hbody⟩ := h
  have hentry : ∀ m, InsertBody (recordRequest base l k a o v m) e.body →
      (recordRequest base l k a o v m).entry = some e := fun m hb =>
    entry_some (body_of_insertBody hb) happlies hbase hlength hpos hle htop hhits
  cases hb : e.body with
  | replace j off =>
    rw [hb] at hbody hentry
    obtain ⟨hk, hj, hoff, ho⟩ := hbody
    exact ⟨_, hentry (j.val + 1) ⟨hk, rfl, hoff, ho⟩, entryFixed_named hk hj⟩
  | fill w =>
    rw [hb] at hbody hentry
    obtain ⟨hk, hw⟩ := hbody
    exact ⟨_, hentry 0 ⟨hk, hw⟩, entryFixed_plain (by rw [hk]; decide)⟩
  | trap w =>
    rw [hb] at hbody hentry
    obtain ⟨hk, hw⟩ := hbody
    exact ⟨_, hentry 0 ⟨hk, hw⟩, entryFixed_plain (by rw [hk]; decide)⟩
  | count =>
    rw [hb] at hbody hentry
    exact ⟨_, hentry 0 hbody, entryFixed_plain (by rw [hbody]; decide)⟩

/-- R167: a request of the record that gives an entry is one the record asks for. -/
theorem recordAsks_of_entry {m : Nat} (he : (recordRequest base l k a o v m).entry = some e)
    (hm : k = 1 → ∃ j, s.loader.segmentMap[n.toNat]? = some j ∧ m = j.val + 1) :
    RecordAsks s.loader.segmentMap base l k a n o v e := by
  obtain ⟨hbody, happlies, hbase, hlength, hpos, hle, htop, hhits⟩ := entryFields_of_entry he
  refine ⟨hbase, hlength, hpos, hle, htop, hhits, happlies, ?_⟩
  cases hb : e.body with
  | replace j off =>
    rw [hb] at hbody
    obtain ⟨hk, hj, hoff, ho⟩ := hbody
    obtain ⟨i, hi, hmi⟩ := hm hk
    have hji : j = i := Fin.ext (Nat.succ.inj ((show m = j.val + 1 from hj).symm.trans hmi))
    exact ⟨hk, hji ▸ hi, hoff, ho⟩
  | fill w =>
    rw [hb] at hbody
    exact hbody
  | trap w =>
    rw [hb] at hbody
    exact hbody
  | count =>
    rw [hb] at hbody
    exact hbody

theorem loaderInsert_refused {q : InsertRequest} {c : ResultCode} {i : Nat} (h : insertAnswer s q = .refused c i) :
    s.loaderInsert q = s.failRecord (insertFailure c) := by
  rw [State.loaderInsert, h]

theorem loaderInsert_taken {q : InsertRequest} {i : Nat} (h : insertAnswer s q = .taken e i) :
    s.loaderInsert q = (s.placeEntry e i).completeRecord := by
  rw [State.loaderInsert, h]

/-- R167: a record whose ordinal or whose fields are out of range. -/
theorem entryFixed_unasked (hl : s.tables.stagedLock = false)
    (h : ∀ e, ¬ RecordAsks s.loader.segmentMap base l k a n o v e) :
    s.entryFixed (recordRequest base l k a o v 0) n.toNat = s.failRecord .recordBad := by
  have hbad : ∀ m, (k = 1 → ∃ j, s.loader.segmentMap[n.toNat]? = some j ∧ m = j.val + 1) →
      s.loaderInsert (recordRequest base l k a o v m) = s.failRecord .recordBad := by
    intro m hm
    have hnone : (recordRequest base l k a o v m).entry = none := by
      cases he : (recordRequest base l k a o v m).entry with
      | none => rfl
      | some e => exact absurd (recordAsks_of_entry he hm) (h e)
    exact loaderInsert_refused (c := .badParam) (insertAnswer_badParam hl hnone)
  by_cases hk : k = 1
  · cases hj : s.loader.segmentMap[n.toNat]? with
    | none => exact entryFixed_unnamed hk hj
    | some j => exact (entryFixed_named hk hj).trans (hbad (j.val + 1) fun _ => ⟨j, hj, rfl⟩)
  · exact (entryFixed_plain hk).trans (hbad 0 fun e => absurd e hk)

theorem overlapIndex_isSome {es : List Entry} (h : ∃ f ∈ es, SharesAddress e f) : ∃ i, overlapIndex es e = some i := by
  obtain ⟨f, hf, hs⟩ := h
  cases hi : overlapIndex es e with
  | some i => exact ⟨i, rfl⟩
  | none =>
    have hno := List.findIdx?_eq_none_iff.mp hi f hf
    rw [(overlaps_iff e f).mpr hs] at hno
    cases hno

theorem sealed_of_segment {h : Handle} (hr : SegmentReady s e) (hs : e.segment? = some h) :
    ∃ r d, s.segment h = .sealed r d := by
  unfold Entry.segment? at hs
  cases hb : e.body with
  | replace j o =>
    rw [hb] at hs
    obtain ⟨r, d, hg, -⟩ := hr j o hb
    cases hs
    exact ⟨r, d, hg⟩
  | _ => rw [hb] at hs; cases hs

theorem completeRecord_eq (hp : s.loader.phase = .records) (hc : s.loader.current = none) :
    s.completeRecord = s.setLoader { s.loader with recordsTaken := s.loader.recordsTaken + 1 } := by
  rw [State.completeRecord, ← hc, ← hp]

theorem exec_entryRecord {x : Slot} {h : ImageHeader} (ha : AtRecord s x h)
    (hl : s.loader.bodyRead + 13 ≤ h.bodyLength.toNat) :
    exec (.entryRecord base l k a n o v) s
      = .next ((s.readBody (entryRecordBytes base l k a n o v)).entryFixed (recordRequest base l k a o v 0) n.toNat) := by
  change execEntryRecord base l k a n o v s = _
  exact outOfReset_record_read ha (by exact (show 13 ≤ h.bodyLength.toNat - s.loader.bodyRead by omega)) _

end

/-- Settles O53: what the record asks for, then the checks of its insert in their order. -/
theorem anEntryRecordStagesItsEntry : Obligations.AnEntryRecordStagesItsEntry := by
  intro s x hd base l k a n o v outcome ha hfit hlock houtcome
  obtain ⟨-, -, hphase, hcurrent, hslot, -⟩ := id ha
  generalize hread : s.readBody (entryRecordBytes base l k a n o v) = u
  have hanswer : ∀ {t}, u.entryFixed (recordRequest base l k a o v 0) n.toNat = t → outcome t := by
    intro t ht
    rw [houtcome, exec_entryRecord ha hfit, hread, ht]
  have hfail : ∀ r, u.failRecord r = slotFailed s x r s.loader.recordsTaken := fun r => by
    rw [← hread]
    exact failRecord_readBody hslot _ r
  have hmap : u.loader.segmentMap = s.loader.segmentMap := by rw [← hread]; rfl
  have htables : u.tables = s.tables := by rw [← hread]; rfl
  have hmem : u.mem = s.mem := by rw [← hread]; rfl
  have huphase : u.loader.phase = .records := by rw [← hread]; exact hphase
  have hucurrent : u.loader.current = none := by rw [← hread]; exact hcurrent
  have hsegs : ∀ j, u.segment j = s.segment j := fun j => by rw [← hread]; rfl
  have hulock : u.tables.stagedLock = false := by rw [htables]; exact hlock
  refine ⟨fun hnone => ?_, fun e he => ?_⟩
  · rw [← hfail]
    exact hanswer (entryFixed_unasked hulock (by rw [hmap]; exact hnone))
  · obtain ⟨q, hq, hfixed⟩ := entryFixed_asked (s := u) (by rw [hmap]; exact he)
    have hinsert : ∀ {c i}, insertAnswer u q = .refused c i →
        outcome (slotFailed s x (insertFailure c) s.loader.recordsTaken) := by
      intro c i hc
      rw [← hfail]
      exact hanswer (hfixed.trans (loaderInsert_refused hc))
    refine ⟨fun h off r d hb hg hd => hinsert (insertAnswer_segment hulock hq
      (segmentRefusal_range hb ((hsegs h).trans hg) hd)), fun hready => ?_⟩
    have huready : SegmentReady u e := fun h off hb => by
      obtain ⟨r, d, hg, hd⟩ := hready h off hb
      exact ⟨r, d, (hsegs h).trans hg, hd⟩
    refine ⟨fun hn => hinsert (insertAnswer_full hulock hq huready (by rw [htables]; exact hn)), fun hn hshare => ?_,
      fun hn hno p mem hp hplain hclaim => ?_⟩
    · obtain ⟨i, hi⟩ := overlapIndex_isSome hshare
      exact hinsert (insertAnswer_overlap hulock hq huready (by rw [htables]; exact hn) (by rw [htables]; exact hi))
    · have hup : u.tables.staged.countP (fun f => decide (f.base.toNat < e.base.toNat)) = p := by rw [htables, hp]
      have hple : p ≤ u.tables.staged.length := by
        rw [← hup]
        exact List.countP_le_length
      have htaken := insertAnswer_taken hulock hq huready (by rw [htables]; exact hn) (by rw [htables]; exact hno)
      rw [hup] at htaken
      refine hanswer (hfixed.trans ((loaderInsert_taken htaken).trans ?_))
      have hplaced : u.placeEntry e p = { u with
          tables := { u.tables with staged := u.tables.staged.take p ++ e :: u.tables.staged.drop p }, mem := mem } := by
        cases hsome : e.segment? with
        | none =>
          rw [hplain hsome, ← hmem]
          exact (placeEntry_eq hple).1 hsome
        | some h =>
          obtain ⟨r, d, hg⟩ := sealed_of_segment huready hsome
          rw [hclaim h r d hsome ((hsegs h).symm.trans hg), ← hmem]
          exact (placeEntry_eq hple).2 h r d hsome hg
      rw [hplaced, completeRecord_eq (by exact huphase) (by exact hucurrent), ← hread]
      rfl

/-! ### END records (R168, R169) -/

section

variable {s : State} {x : Slot} {h : ImageHeader}

theorem exec_endRecord (ha : AtRecord s x h) (hl : s.loader.bodyRead + 1 ≤ h.bodyLength.toNat) :
    exec .endRecord s = .next (s.readBody [0x03]).endFixed := by
  change execEndRecord s = _
  exact outOfReset_record_read ha (by exact (show 1 ≤ h.bodyLength.toNat - s.loader.bodyRead by omega)) _

theorem endFixed_fails {r : SlotResult} (hh : s.loader.header = some h) (hf : endFailure s h = some r) :
    s.endFixed = s.failRecord r := by
  rw [State.endFixed, hh]
  dsimp only
  rw [hf]

theorem endFixed_succeeds (hh : s.loader.header = some h) (hf : endFailure s h = none) :
    s.endFixed = s.succeedSlot h := by
  rw [State.endFixed, hh]
  dsimp only
  rw [hf]

theorem endFailure_recordBad (hl : s.loader.bodyRead < h.bodyLength.toNat) : endFailure s h = some .recordBad := if_pos hl

theorem endFailure_countMismatch (hl : ¬ s.loader.bodyRead < h.bodyLength.toNat)
    (hn : s.loader.recordsTaken + 1 ≠ h.recordCount.toNat) : endFailure s h = some .countMismatch := by
  rw [endFailure, if_neg hl, if_pos hn]

theorem endFailure_bodyCrc (hl : ¬ s.loader.bodyRead < h.bodyLength.toNat)
    (hn : s.loader.recordsTaken + 1 = h.recordCount.toNat) (hc : crc32Final s.loader.remainder ≠ h.bodyCrc) :
    endFailure s h = some .bodyCrc := by
  rw [endFailure, if_neg hl, if_neg (not_not.mpr hn), if_pos hc]

theorem endFailure_none (hl : ¬ s.loader.bodyRead < h.bodyLength.toNat)
    (hn : s.loader.recordsTaken + 1 = h.recordCount.toNat) (hc : crc32Final s.loader.remainder = h.bodyCrc) :
    endFailure s h = none := by
  rw [endFailure, if_neg hl, if_neg (not_not.mpr hn), if_neg (not_not.mpr hc)]

/-- R169: the loader's commit takes effect at the next fetch idle. -/
theorem commit_mode (h : ImageHeader) : h.commit.mode = .now := by
  unfold ImageHeader.commit
  split <;> rfl

/-- R168, R169: the loader of a slot that succeeds. -/
theorem succeed_eq {l : Loader} (hs : l.slot = some x) (h : ImageHeader) :
    l.succeed h = { l with
      header := none, segmentMap := [], recordsTaken := l.recordsTaken + 1, phase := .switchWait
      asksTrial := decide (h.commit.probation ≠ 0), transaction := none
      outcome := l.outcome.report x { result := .ok, index := l.recordsTaken } } := by
  have hreport : l.report { result := .ok, index := l.recordsTaken }
      = { l with outcome := l.outcome.report x { result := .ok, index := l.recordsTaken } } := by
    rw [Loader.report, hs]
  have htrial : (h.commit.probation != 0) = decide (h.commit.probation ≠ 0) := by
    rw [Bool.eq_iff_iff, bne_iff_ne, decide_eq_true_iff]
  rw [Loader.succeed, hreport, htrial]

end

/-- Settles O54: the checks of END in their order, then the commit, switched at once or left to wait. -/
theorem anEndRecordCommitsTheImage : Obligations.AnEndRecordCommitsTheImage := by
  rintro s x hd read c ended ha hone rfl hc hended
  obtain ⟨hx, -, -, -, hslot, hheader⟩ := id ha
  have hexec := exec_endRecord ha hone
  have hfails : ∀ {r}, endFailure (s.readBody [0x03]) hd = some r →
      exec .endRecord s = .next (slotFailed s x r s.loader.recordsTaken) := by
    intro r hr
    rw [hexec, endFixed_fails (by exact hheader) hr, failRecord_readBody hslot]
  refine ⟨fun hlt => hfails (endFailure_recordBad (by exact hlt)), fun heq => ?_⟩
  have hend : ¬ (s.readBody [0x03]).loader.bodyRead < hd.bodyLength.toNat := by
    show ¬ s.loader.bodyRead + 1 < hd.bodyLength.toNat
    omega
  refine ⟨fun hn => hfails (endFailure_countMismatch hend (by exact hn)),
    fun hn hcrc => hfails (endFailure_bodyCrc hend (by exact hn) (by exact hcrc)), fun hn hcrc => ?_⟩
  have hcommit : hd.commit = c := hc.symm
  have hsettle : (s.readBody [0x03]).endFixed = ended.settle := by
    rw [endFixed_succeeds (by exact hheader) (endFailure_none hend (by exact hn) (by exact hcrc)), State.succeedSlot,
      succeed_eq (by exact hslot), hcommit, hended]
    cases x <;> rfl
  have hfetch : ended.fetch = s.fetch := by rw [hended]; rfl
  have hpins : ended.pins = s.pins := by rw [hended]; rfl
  have hstate : ended.gen.state = .commitPending c := by rw [hended]; rfl
  have hnumber : switchNumber ended.gen.counter ended.tables.live.generation
      = switchNumber s.gen.counter s.tables.live.generation := by rw [hended]; rfl
  have hmode : c.mode = .now := hcommit ▸ commit_mode hd
  rw [hexec, hsettle]
  refine ⟨fun h => by rw [settle_stays hx h hfetch hpins], fun hr hno => ?_⟩
  rw [settle_moves (by rw [hfetch]; exact hr) (movementWaits_now hstate hmode) (acceptable_none hno hfetch hpins),
    takeMovement_now hstate hmode, hnumber]

end Sys2Proof.Proofs
end
